-- ==== Sys2Proof/Word.lean ====
section
/-! DEFINITION. The words of PFCORE: limbs and host registers (64 bits), command words (32 bits), register fields
(4 bits), and element registers as limb vectors (00_scope.md R12, 30_encoding.md R101). -/

namespace Sys2Proof

/-- A limb or a host register: 64 bits, a limb read as two's complement (R12, R31). -/
abbrev Word := BitVec 64

/-- A command word (R100). -/
abbrev CmdWord := BitVec 32

/-- A register field of a command word: every index 0..15 is legal (R101). -/
abbrev Reg := BitVec 4

/-- The contents of an element register or a scratchpad buffer: its limbs, limb 0 first (R31, R77). -/
abbrev Element := List Word

/-- The scrubbed limb, 0xFFFFFFFFFFFFFFFF (R49, R287, R288). -/
def scrubbedLimb : Word := 0xFFFFFFFFFFFFFFFF#64

end Sys2Proof
end

