-- ==== Sys2Proof/Config.lean ====
section
/-! DEFINITION. What an implementation fixes (parameter set, latencies, platform, LOOSE_EXACT: 00_scope.md R7 to R11)
and the free values, constants with no body that stand for what the spec leaves unspecified. -/

namespace Sys2Proof

/-- The integer parameters of an instance (R7): p = 2^n − c, DB value bits in limbs 0..D−2, half-limbs of MDB bits.
The derived parameters are in Machine/Geometry.lean. -/
structure Params where
  /-- n, the field's bit width. -/
  n : Nat
  /-- c, the small constant of p = 2^n − c. -/
  c : Nat
  /-- DIGIT_BITS. -/
  db : Nat
  /-- MUL_DIGIT_BITS. -/
  mdb : Nat
  deriving DecidableEq, Repr

namespace Params

/-- F222 of R9, the reference set. -/
def f222 : Params := { n := 222, c := 117, db := 58, mdb := 29 }

/-- F383 of R9. -/
def f383 : Params := { n := 383, c := 187, db := 58, mdb := 29 }

/-- F414 of R9. -/
def f414 : Params := { n := 414, c := 17, db := 58, mdb := 29 }

/-- F511 of R9. -/
def f511 : Params := { n := 511, c := 187, db := 58, mdb := 29 }

/-- The four parameter sets this spec decides (R9). -/
def decided : List Params := [f222, f383, f414, f511]

end Params

/-- LAT, the open latency parameter (R11, R368), as the cycles beyond the first, so that LAT(op) ≥ 1 holds of every
value of this type. An opcode that `extra` does not list takes one cycle; where it lists an opcode twice the first counts.
DESIGN CHOICE (log 4): the form; the values are an instance's. -/
structure Latency where
  /-- Opcode and LAT(op) − 1. -/
  extra : List (BitVec 8 × Nat)
  /-- LAT(ILLEGAL) − 1, one constant for all illegal words. -/
  illegalExtra : Nat
  deriving DecidableEq, Repr

/-- LAT = 1 for every command, the least R368 allows. -/
def Latency.minimal : Latency := { extra := [], illegalExtra := 0 }

/-- The open platform parameters: BASE (R70) and IRQ_LINE (R328). -/
structure Platform where
  /-- BASE, the platform address of the register window. -/
  base : Nat
  /-- IRQ_LINE, the interrupt controller input that irq drives. -/
  irqLine : Nat
  deriving DecidableEq, Repr

/-- Everything fixed for one instance of PFCORE. -/
structure Setup where
  params : Params
  latency : Latency
  platform : Platform
  /-- LOOSE_EXACT (R157): true, the spec's default, makes every loose result exact. -/
  looseExact : Bool
  deriving DecidableEq, Repr

/-- The instance that `State.reset` is of. DESIGN CHOICE (logs 3, 4, 5, 6): F222, the spec's reference set; one cycle
for every command; BASE and IRQ_LINE 0; LOOSE_EXACT true, the spec's default. -/
def Setup.reference : Setup :=
  { params := Params.f222, latency := Latency.minimal, platform := { base := 0, irqLine := 0 }, looseExact := true }

namespace Config

/-- Free value (log 1): limb `i` of the unspecified element that a command with a model-level fault writes (R148, R188,
R326), in draw `d`. -/
opaque freeLimb (d i : Nat) : BitVec 64

/-- Free value (log 1): the unspecified RESULT of a query with a model-level fault (R148, R326), in draw `d`. -/
opaque freeResult (d : Nat) : BitVec 64

/-- Free value (log 9): what a host read of RESULT, PBUF, PBUF_LEN or LIMB answers while BUSY = 1 (R83), in draw `d`. -/
opaque freeRead (d : Nat) : BitVec 64

/-- Free value (log 6): with LOOSE_EXACT = false, the multiple of p by which a loose result may differ from the exact
one (R157), in draw `d`. -/
opaque freeMultiple (d : Nat) : Int

end Config

end Sys2Proof
end

