-- ==== Sys2Proof/Machine/Geometry.lean ====
section
/-! DEFINITION. The parameters derived from a parameter set (00_scope.md R7), the scalar ranges (R10), the residue class
of p (10_state.md R43), and the constant words ID and CFG (R42, R43). -/

namespace Sys2Proof

namespace Params

/-- D = ceil(n / DB), the number of limbs (R7). -/
def numLimbs (p : Params) : Nat := (p.n + p.db - 1) / p.db

/-- HDB = n − (D−1)·DB, the value bits of the top limb (R7). -/
def hdb (p : Params) : Nat := p.n - (p.numLimbs - 1) * p.db

/-- PB = ceil(n / 8), the packed bytes (R7). -/
def packedBytes (p : Params) : Nat := (p.n + 7) / 8

/-- PBW = ceil(PB / 8), the PBUF words (R7). -/
def pbufWords (p : Params) : Nat := (p.packedBytes + 7) / 8

/-- p = 2^n − c (R7). -/
def prime (p : Params) : Nat := 2 ^ p.n - p.c

/-- PCLASS (R43): 1 for p ≡ 3 (mod 4), 2 for p ≡ 5 (mod 8); a legal set has one of them (R8(d)). -/
def pclass (p : Params) : Nat :=
  if p.prime % 4 = 3 then 1 else if p.prime % 8 = 5 then 2 else 0

/-- addMin = −(2^63 − 2^DB) (R10, 90_conflicts.md C2). -/
def addMin (p : Params) : Int := -((2 : Int) ^ 63 - 2 ^ p.db)

/-- addMax = 2^DB − 1 (R10). -/
def addMax (p : Params) : Int := 2 ^ p.db - 1

/-- mulMin = −(2^32 − 2^MDB) (R10, 90_conflicts.md C5). -/
def mulMin (p : Params) : Int := -((2 : Int) ^ 32 - 2 ^ p.mdb)

/-- mulMax = 2^MDB − 1 (R10). -/
def mulMax (p : Params) : Int := 2 ^ p.mdb - 1

/-- NR, the number of element registers (R11). -/
def numRegs : Nat := 16

/-- The word of the ID register (R42). DESIGN CHOICE (log 2): a parameter too wide for its field, such as c ≥ 2^16, which
R8 can allow, reads mod the width of the field. -/
def idWord (p : Params) : Word :=
  BitVec.ofNat 8 p.hdb ++ BitVec.ofNat 8 p.mdb ++ BitVec.ofNat 8 p.db ++ BitVec.ofNat 8 p.numLimbs ++
    BitVec.ofNat 16 p.c ++ BitVec.ofNat 16 p.n

/-- The word of the CFG register, with VERSION = 1 (R43). DESIGN CHOICE (log 2): as for ID, PB reads mod 2^16. -/
def cfgWord (p : Params) : Word :=
  BitVec.ofNat 24 0 ++ BitVec.ofNat 8 1 ++ BitVec.ofNat 6 0 ++ BitVec.ofNat 2 p.pclass ++
    BitVec.ofNat 8 numRegs ++ BitVec.ofNat 16 p.packedBytes

/-- The scrubbed element: all-ones in every limb (R49, R287). -/
def scrubbed (p : Params) : Element := List.replicate p.numLimbs scrubbedLimb

end Params

end Sys2Proof
end

