-- ==== Sys2Proof/Machine/State.lean ====
section
/-! DEFINITION. The architectural state of one PFCORE instance (10_state.md R30 to R49) with the host's coming actions,
the reasons a step can stop, and the state after reset (R49). -/

namespace Sys2Proof.Machine

/-- The model-level faults of R326: the inputs for which a command's value is unspecified. -/
inductive UB where
  /-- UB_OPERAND: a source register that is not WF (R148). -/
  | operand
  /-- UB_SCALAR: SCALAR outside the range of the command (R188, R220). -/
  | scalar
  deriving DecidableEq, Repr

/-- The reasons the machine stops with a fault. -/
inductive Fault where
  /-- Raised by `step` when the host accesses an address outside the register window BASE..BASE+0x1FFF, which the spec
  gives no register (R70, R71; log 11). Safe: such an access does not reach the block. -/
  | outsideWindow
  /-- Raised by `Safety.strictStep` alone, never by `step` or `exec`: the run stops at a command with a model-level fault,
  as R326 has a model stop. Safe: the hardware goes on with unspecified values. -/
  | ub (u : UB)
  deriving DecidableEq, Repr

/-- The reasons the model refuses to give a step. -/
inductive Refusal where
  /-- An instruction without a meaning. No arm of `exec` raises it. Safe. -/
  | notModelled (mnemonic : String)
  /-- Raised by `step` when the host accesses the block while reset is asserted, which R360 says is not defined and must
  not be made (K17; log 12). Safe: what such an access does is for the platform. -/
  | accessDuringReset
  deriving DecidableEq, Repr

/-- ERRCODE (R321): the values 3..15 are never produced. -/
inductive ErrCode where
  | none
  | illegal
  | shape
  deriving DecidableEq, Repr

/-- A host access at a bus address, `bytes` wide (R72). -/
inductive Access where
  | read (addr bytes : Nat)
  | write (addr bytes : Nat) (value : Word)
  deriving DecidableEq, Repr

/-- What happens at the block's boundary in one clock cycle (R370; log 7). -/
inductive HostOp where
  /-- No access in this cycle. -/
  | idle
  /-- The host waits until BUSY = 0: it makes no access, and stays here for as long as a cycle begins with BUSY = 1. -/
  | wait
  /-- One register access. -/
  | access (a : Access)
  /-- The reset input is asserted in this cycle (R360). -/
  | reset
  /-- The reset input is asserted and the host makes an access (R360, K17). -/
  | resetWith (a : Access)
  deriving DecidableEq, Repr

/-- The sequencer (R46): idle, or busy with the accepted word for `left` more clock cycles. -/
inductive Phase where
  | idle
  | busy (word : CmdWord) (left : Nat)
  deriving DecidableEq, Repr

/-- The state of one PFCORE instance. The fields down to `phase` are R30's; ID, CFG, the constant store and irq are
functions of this state (INVENTORY.md, log 21). The fields after `setup` are the model's own. -/
structure State where
  /-- The element registers e0..e15 (R31). -/
  regs : Vector Element 16
  /-- Scratchpad buffer d0 (R44). -/
  d0 : Element
  /-- Scratchpad buffer d1 (R44). -/
  d1 : Element
  /-- Scratchpad buffer d2 (R44). -/
  d2 : Element
  /-- STATUS.DONE (R36). -/
  done : Bool
  /-- STATUS.ERR (R36). -/
  err : Bool
  /-- STATUS.OVERRUN (R36). -/
  overrun : Bool
  /-- STATUS.ERRCODE (R36, R321). -/
  errCode : ErrCode
  /-- CTRL.IE (R37). -/
  ie : Bool
  /-- CMD readback: the last accepted command word (R38). -/
  cmd : CmdWord
  /-- SCALAR (R39). -/
  scalar : Word
  /-- RESULT (R40). -/
  result : Word
  /-- CMDCOUNT (R35). -/
  cmdCount : Word
  /-- PBUF, PBW words (R41). -/
  pbuf : List Word
  /-- PBUF_LEN, the bits 15:0 it has (R41). -/
  pbufLen : BitVec 16
  /-- The sequencer (R46); STATUS.BUSY mirrors it. -/
  phase : Phase
  /-- The instance: parameter set, LAT, BASE, IRQ_LINE, LOOSE_EXACT (R11). Nothing changes it. -/
  setup : Setup
  /-- MODEL: what happens at the boundary in the coming cycles (log 7). -/
  inputs : List HostOp
  /-- MODEL: what the host read of the cycle just ended answered (log 7). -/
  readData : Option Word
  /-- MODEL: how many free values have been drawn (log 10). -/
  draws : Nat
  /-- MODEL: the first model-level fault since reset (R326; log 1). -/
  report : Option UB
  deriving DecidableEq, Repr

namespace State

/-- The state after reset of instance `u` (R49; `buildInstance` makes the checks of R8 first), with the host about to do `inputs`, and the model's count of draws. -/
def resetOf (u : Setup) (inputs : List HostOp) (draws : Nat) : State where
  regs := Vector.replicate 16 u.params.scrubbed
  d0 := u.params.scrubbed
  d1 := u.params.scrubbed
  d2 := u.params.scrubbed
  done := false
  err := false
  overrun := false
  errCode := .none
  ie := false
  cmd := 0#32
  scalar := 0#64
  result := 0#64
  cmdCount := 0#64
  pbuf := List.replicate u.params.pbufWords 0#64
  pbufLen := 0#16
  phase := .idle
  setup := u
  inputs := inputs
  readData := none
  draws := draws
  report := none

/-- The machine right after reset (R49), an instance of the reference set F222 (log 3) to which the host does nothing
yet. -/
def reset : State := resetOf Setup.reference [] 0

end State

end Sys2Proof.Machine
end

