-- ==== Sys2Proof/Machine/Limbs.lean ====
section
/-! DEFINITION. The integer functions on limb vectors: val, res, low, chain, fold, canon, WF, Normalized
(40_limb_model.md R140 to R146). -/

namespace Sys2Proof.Machine

/-- val (R140): the integer a limb vector represents, each limb read signed. -/
def val (p : Params) : Element → Int
  | [] => 0
  | l :: ls => l.toInt + 2 ^ p.db * val p ls

/-- The top limb of a vector, L[D−1]. -/
def topLimb (L : Element) : Word := L.getLastD 0#64

/-- res (R141): the top limb shifted right arithmetically past its HDB value bits. -/
def res (p : Params) (L : Element) : Int := (topLimb L).toInt / 2 ^ p.hdb

/-- low (R142): the value of the vector with its top limb masked to HDB bits. -/
def low (p : Params) (L : Element) : Int :=
  val p L.dropLast + (topLimb L).toInt % 2 ^ p.hdb * 2 ^ (p.db * (p.numLimbs - 1))

/-- chain with an explicit limb count (R143): limbs of DB bits, the top limb unmasked. -/
def chainK (p : Params) : Nat → Int → Element
  | 0, _ => []
  | 1, V => [BitVec.ofInt 64 V]
  | k + 2, V => BitVec.ofInt 64 (V % 2 ^ p.db) :: chainK p (k + 1) (V / 2 ^ p.db)

/-- chain, that is chain_D (R143). -/
def chain (p : Params) (V : Int) : Element := chainK p p.numLimbs V

/-- fold (R145): one pseudo-Mersenne reduction. -/
def fold (p : Params) (V : Int) : Int := V % 2 ^ p.n + p.c * (V / 2 ^ p.n)

/-- The residue of a limb vector's value mod p, in [0, p). -/
def residue (p : Params) (L : Element) : Nat := (val p L % (p.prime : Int)).toNat

/-- canon of an integer (R146): the chained vector of its residue. -/
def canon (p : Params) (v : Int) : Element := chain p (v % (p.prime : Int))

/-- The bound on the top limb of a WF vector (R144): [−2^(HDB+2), 2^(HDB+2)). -/
def topLimbOk (p : Params) (t : Word) : Bool :=
  decide (-(2 : Int) ^ (p.hdb + 2) ≤ t.toInt) && decide (t.toInt < 2 ^ (p.hdb + 2))

/-- A limb in [0, 2^DB), the bound on limbs 0..D−2 of a WF vector (R144). -/
def lowLimbOk (p : Params) (l : Word) : Bool := decide (0 ≤ l.toInt) && decide (l.toInt < 2 ^ p.db)

/-- WF (R144): D limbs, all but the top one in [0, 2^DB), the top one in [−2^(HDB+2), 2^(HDB+2)). -/
def wf (p : Params) (L : Element) : Bool :=
  L.length == p.numLimbs && L.dropLast.all (lowLimbOk p) && topLimbOk p (topLimb L)

/-- Normalized (R146): the chained vector of a value in [0, p). -/
def normalized (p : Params) (L : Element) : Bool := L == canon p (val p L)

end Sys2Proof.Machine
end

