-- ==== Sys2Proof/Machine/DataPath.lean ====
section
/-! DEFINITION. The units' data paths in 64-bit two's-complement arithmetic, as the spec writes them: carry chain and
residual fold (40_limb_model.md R149, R150), normalize (R154), add and subtract (41_add_sub.md R181, R185), multiply, square
and scalar multiply (42_mul_square.md R210 to R217, R222), and the reference ladder (43_power_ladders.md R242). Every
operation here wraps at its stated width. The commands take the closed forms as their meaning (R143, R221); that these paths
compute the closed forms is stated in Certificates/Slice0/Obligations.lean. -/

namespace Sys2Proof.Machine

/-- A mask of the `k` low bits of a 64-bit word. -/
def maskWord (k : Nat) : Word := BitVec.ofNat 64 (2 ^ k - 1)

/-- `carry_chain` with a carry coming in (R149). -/
def carryFrom (p : Params) (carry : Word) : Element → Element
  | [] => []
  | [t] => [t + carry]
  | t :: u :: ts => ((t + carry) &&& maskWord p.db) :: carryFrom p ((t + carry).sshiftRight p.db) (u :: ts)

/-- `carry_chain` (R149): the top limb is not masked. -/
def carryChain (p : Params) (t : Element) : Element := carryFrom p 0#64 t

/-- The top limb masked to its HDB value bits (R142, R150, R215). -/
def maskTop (p : Params) (t : Element) : Element := t.dropLast ++ [topLimb t &&& maskWord p.hdb]

/-- The top limb's residual carry-out as a word (R141). -/
def resWord (p : Params) (t : Element) : Word := (topLimb t).sshiftRight p.hdb

/-- Adds a word into limb 0. -/
def addLimb0 (x : Word) : Element → Element
  | [] => []
  | l :: ls => (l + x) :: ls

/-- c as a word. -/
def cWord (p : Params) : Word := BitVec.ofNat 64 p.c

/-- `fold_top` (R150). -/
def foldTop (p : Params) (t : Element) : Element := addLimb0 (resWord p t * cWord p) (maskTop p t)

/-- One carry-fold pass, the data path of REDUCE (R152). -/
def reducePath (p : Params) (t : Element) : Element := carryChain p (foldTop p t)

/-- `normalize` (R154): what it leaves in the scratchpad buffers d0 and d1, of which d1 is the result. -/
def normalizeBuffers (p : Params) (a : Element) : Element × Element :=
  let d0 := reducePath p (reducePath p a)
  let candidate := carryChain p (addLimb0 (cWord p) d0)
  let k := resWord p candidate
  (d0, maskTop p (carryChain p (addLimb0 (k * cWord p) d0)))

/-- The result of `normalize` (R154). -/
def normalizePath (p : Params) (a : Element) : Element := (normalizeBuffers p a).2

/-- Limb-by-limb sum, or difference where `neg` is set. -/
def combine (neg : Bool) : Element → Element → Element
  | a :: as, b :: bs => (if neg then a - b else a + b) :: combine neg as bs
  | _, _ => []

/-- `addsub` (R181), σ = −1 where `neg` is set. -/
def addsubPath (p : Params) (a b : Element) (neg : Bool) : Element :=
  let k := if neg then resWord p a - resWord p b else resWord p a + resWord p b
  carryChain p (addLimb0 (k * cWord p) (combine neg (maskTop p a) (maskTop p b)))

/-- The 65-bit limb-0 adder of ADDS, SUBS and SETI (R185): t[0] ± s + k·c. -/
def limb0Sum (t0 s kc : Word) (neg : Bool) : BitVec 65 :=
  (if neg then t0.signExtend 65 - s.signExtend 65 else t0.signExtend 65 + s.signExtend 65) + kc.signExtend 65

/-- `addsub_s` (R185), σ = −1 where `neg` is set. -/
def addsubScalarPath (p : Params) (a : Element) (s : Word) (neg : Bool) : Element :=
  match maskTop p a with
  | t0 :: ts =>
    let x0 := limb0Sum t0 s (resWord p a * cWord p) neg
    carryChain p ((x0.setWidth 64 &&& maskWord p.db) :: addLimb0 ((x0.sshiftRight p.db).setWidth 64) ts)
  | [] => []

/-- The half-limb vector of a limb vector (R211). -/
def halfLimbs (p : Params) : Element → List Word
  | [] => []
  | l :: ls => (l &&& maskWord p.mdb) :: l.sshiftRight p.mdb :: halfLimbs p ls

/-- Sum of two vectors, the longer one's tail kept. -/
def addVectors : List Word → List Word → List Word
  | a :: as, b :: bs => (a + b) :: addVectors as bs
  | [], bs => bs
  | as, [] => as

/-- The column sums (R212): col[j] is the sum of A[u]·B[v] over u + v = j. -/
def columns : List Word → List Word → List Word
  | [], _ => []
  | a :: as, bs => addVectors (bs.map (a * ·)) (0#64 :: columns as bs)

/-- The pairing of columns into limbs (R213), `prev` the odd column before the first one here. -/
def pairColumns (p : Params) (prev : Word) : List Word → Element
  | [] => []
  | [c0] => [c0 + prev.sshiftRight p.mdb]
  | c0 :: c1 :: cs => (c0 + ((c1 &&& maskWord p.mdb) <<< p.mdb) + prev.sshiftRight p.mdb) :: pairColumns p c1 cs

/-- The 2D-limb product after its carry chain (R212 to R214). -/
def productPath (p : Params) (a b : Element) : Element :=
  carryChain p (pairColumns p 0#64 (columns (halfLimbs p a) (halfLimbs p b)))

/-- The low half l of a product, split at bit n (R215). -/
def splitLow (p : Params) (d : Element) : Element := maskTop p (d.take p.numLimbs)

/-- The limbs of the high half, from limb D−1 of the product on (R215). -/
def highLimbs (p : Params) : Element → Element
  | x :: y :: z :: ds =>
    (x.sshiftRight p.hdb + ((y &&& maskWord p.hdb) <<< (p.db - p.hdb))) :: highLimbs p (y :: z :: ds)
  | [x, y] => [x.sshiftRight p.hdb + (y <<< (p.db - p.hdb))]
  | _ => []

/-- The high half h of a product, split at bit n (R215). -/
def splitHigh (p : Params) (d : Element) : Element := highLimbs p (d.drop (p.numLimbs - 1))

/-- `scalar_pack` (R216), `prev` the high partial product of the limb below. -/
def scalarPack (p : Params) (b : Word) (topFull : Bool) (prev : Word) : Element → Element
  | [] => []
  | [x] =>
    let pl := (x &&& maskWord p.mdb) * b
    let ph := x.sshiftRight p.mdb * b
    if topFull then [pl + prev.sshiftRight p.mdb + (ph <<< p.mdb)]
    else [pl + prev.sshiftRight p.mdb + ((ph &&& maskWord p.mdb) <<< p.mdb), ph.sshiftRight p.mdb]
  | x :: y :: xs =>
    let pl := (x &&& maskWord p.mdb) * b
    let ph := x.sshiftRight p.mdb * b
    (pl + prev.sshiftRight p.mdb + ((ph &&& maskWord p.mdb) <<< p.mdb)) :: scalarPack p b topFull ph (y :: xs)

/-- The multiply data path (R210 to R217). -/
def mulPath (p : Params) (a b : Element) : Element :=
  let d := productPath p a b
  let hm := carryChain p (scalarPack p (cWord p) true 0#64 (splitHigh p d))
  addsubPath p (splitLow p d) hm false

/-- The MULS data path (R222). -/
def mulsPath (p : Params) (a : Element) (b : Word) : Element :=
  let m := carryChain p (scalarPack p b false 0#64 a)
  let k := resWord p (m.take p.numLimbs) + (topLimb m <<< (p.db - p.hdb))
  carryChain p (addLimb0 (k * cWord p) (maskTop p (m.take p.numLimbs)))

/-- The bits k−1 .. 0 of a number, high bit first. -/
def bitsBelow : Nat → Nat → List Bool
  | 0, _ => []
  | k + 1, e => e.testBit k :: bitsBelow k e

/-- The squarings and multiplications of the reference ladder, one step for each exponent bit below the top one (R242). -/
def ladderSteps (p : Params) (a : Element) : List Bool → Element → Element
  | [], r => r
  | bit :: bits, r =>
    let r2 := mulPath p r r
    ladderSteps p a bits (if bit then mulPath p r2 a else r2)

/-- The reference ladder (R242), over the block's own multiplier and normalizer. -/
def ladderPath (p : Params) (a : Element) (e : Nat) : Element :=
  normalizePath p (ladderSteps p a (bitsBelow (Nat.log2 e) e) a)

/-- The XOR-OR fold of CMPEQ over two vectors, no early exit (R289). -/
def xorOrFold : Element → Element → Word
  | a :: as, b :: bs => (a ^^^ b) ||| xorOrFold as bs
  | _, _ => 0#64

/-- The OR fold of ISZERO (R290). -/
def orFold : Element → Word
  | [] => 0#64
  | a :: as => a ||| orFold as

/-- The final bit extraction of R289 and R290: 1 where the word is not 0, as (acc | (0 − acc)) >> 63. -/
def nonZeroBit (acc : Word) : Word := ((acc ||| (0#64 - acc)) >>> 63) &&& 1#64

end Sys2Proof.Machine
end

