-- ==== Sys2Proof/Machine/Flags.lean ====
section
/-! DEFINITION. STATUS, CTRL and irq (10_state.md R36, R37, R47, 60_exceptions.md R321, R328), and the values of RESULT
(43_power_ladders.md R251, R252, 44_pack_hygiene.md R289, R290). -/

namespace Sys2Proof.Machine

/-- The 4-bit ERRCODE (R321). -/
def ErrCode.bits : ErrCode → BitVec 4
  | .none => 0#4
  | .illegal => 1#4
  | .shape => 2#4

/-- Whether the sequencer runs a command. -/
def Phase.isBusy : Phase → Bool
  | .idle => false
  | .busy _ _ => true

namespace State

/-- STATUS.BUSY, the mirror of the sequencer's phase (R36, R46). -/
def isBusy (s : State) : Bool := s.phase.isBusy

/-- The STATUS register as read (R36): ERRCODE in bits 7:4, OVERRUN, ERR, DONE, BUSY in bits 3 to 0, the rest 0. -/
def statusWord (s : State) : Word :=
  0#56 ++ s.errCode.bits ++ BitVec.ofBool s.overrun ++ BitVec.ofBool s.err ++ BitVec.ofBool s.done ++
    BitVec.ofBool s.isBusy

/-- The CTRL register as read (R37): IE in bit 0; SRST and the rest read 0. -/
def ctrlWord (s : State) : Word := 0#63 ++ BitVec.ofBool s.ie

/-- The irq output (R47, R328). -/
def irq (s : State) : Bool := s.ie && (s.done || s.err || s.overrun)

/-- The platform's interrupt input that irq drives, IRQ_LINE, with irq's level (R328, K14). -/
def irqDrive (s : State) : Nat × Bool := (s.setup.platform.irqLine, s.irq)

/-- A host write to STATUS (R36): W1C of DONE, ERR and OVERRUN; clearing ERR clears ERRCODE. -/
def writeStatus (v : Word) (s : State) : State :=
  { s with
    done := s.done && !v.getLsbD 1
    err := s.err && !v.getLsbD 2
    errCode := if v.getLsbD 2 then .none else s.errCode
    overrun := s.overrun && !v.getLsbD 3 }

/-- A write dropped because BUSY = 1 (R324): only OVERRUN is set. -/
def setOverrun (s : State) : State := { s with overrun := true }

end State

/-- The RESULT of LEG from t = x^((p−1)/2) (R251): 1, 0, or −1. -/
def legendreCode (t : Nat) : Word :=
  if t = 1 then 1#64 else if t = 0 then 0#64 else 0xFFFFFFFFFFFFFFFF#64

/-- The RESULT of LEGQ from q = x^((p−1)/4) (R252): 1, 0, −1, or 2 where x is not a square. -/
def quarticCode (p : Params) (q : Nat) : Word :=
  if q = 1 then 1#64 else if q = 0 then 0#64
  else if q = p.prime - 1 then 0xFFFFFFFFFFFFFFFF#64 else 2#64

/-- The RESULT of CMPEQ from two normalized vectors (R289): the DIFF bit, 0 for equal. -/
def diffBit (a b : Element) : Word := nonZeroBit (xorOrFold a b)

/-- The RESULT of ISZERO from a normalized vector (R290): 1 for zero. -/
def zeroBit (a : Element) : Word := 1#64 ^^^ nonZeroBit (orFold a)

/-- The scalar range of ADDS, SUBS and SETI (R10, R188). -/
def inAddRange (p : Params) (s : Word) : Bool := decide (p.addMin ≤ s.toInt) && decide (s.toInt ≤ p.addMax)

/-- The scalar range of MULS (R10, R220). -/
def inMulRange (p : Params) (s : Word) : Bool := decide (p.mulMin ≤ s.toInt) && decide (s.toInt ≤ p.mulMax)

end Sys2Proof.Machine
end

