-- ==== Sys2Proof/Machine/Operands.lean ====
section
/-! DEFINITION. How a command reads its operands: element registers (30_encoding.md R103), SCALAR (R104) and the packed image
(10_state.md R41, 20_memory.md R75, R76). -/

namespace Sys2Proof.Machine

namespace State

/-- The parameter set of the instance. -/
def params (s : State) : Params := s.setup.params

/-- E[r] (R103). -/
def elem (s : State) (r : Reg) : Element := s.regs.get r.toFin

/-- Whether E[r] is WF, the operand check of R148. -/
def operandOk (s : State) (r : Reg) : Bool := wf s.params (s.elem r)

/-- val(E[r]) (R140). -/
def elemVal (s : State) (r : Reg) : Int := val s.params (s.elem r)

/-- The residue of E[r] mod p, the x of 43_power_ladders.md. -/
def elemResidue (s : State) (r : Reg) : Nat := residue s.params (s.elem r)

/-- sext_64(SCALAR) (R104). -/
def scalarInt (s : State) : Int := s.scalar.toInt

/-- PBUF.byte(j) (R41, R76): the words are little-endian. -/
def pbufByte (s : State) (j : Nat) : BitVec 8 := (s.pbuf.getD (j / 8) 0#64).extractLsb' (8 * (j % 8)) 8

/-- The integer of the first `k` bytes of the packed image, little-endian (R75, R281). -/
def imageValue (s : State) : Nat → Nat
  | 0 => 0
  | k + 1 => s.imageValue k + (s.pbufByte k).toNat * 2 ^ (8 * k)

end State

/-- PBUF word `w` of an image given by its bytes (R76). -/
def imageWord (byte : Nat → BitVec 8) (w : Nat) : Word :=
  byte (8 * w + 7) ++ byte (8 * w + 6) ++ byte (8 * w + 5) ++ byte (8 * w + 4) ++
    byte (8 * w + 3) ++ byte (8 * w + 2) ++ byte (8 * w + 1) ++ byte (8 * w)

/-- The PBUF words of an image given by its first PB bytes, the pad bytes 0 (R283). -/
def imageWords (p : Params) (byte : Nat → BitVec 8) : List Word :=
  (List.range p.pbufWords).map (imageWord fun j => if j < p.packedBytes then byte j else 0#8)

/-- Byte `j` of a value, little-endian (R75, R283). -/
def valueByte (v : Nat) (j : Nat) : BitVec 8 := BitVec.ofNat 8 (v / 2 ^ (8 * j))

end Sys2Proof.Machine
end

