-- ==== Sys2Proof/Machine/Ops.lean ====
section
/-! DEFINITION. The shared operations of the meanings: writing element registers, the scratchpad, model-level faults and
their free values (60_exceptions.md R326), completion with or without a hardware error (R327), and reset
(70_reset_and_hazards.md R360 to R362). PFCORE takes no traps and returns from none (R320, R329, R330): `complete` is all
there is to taking an error. -/

namespace Sys2Proof.Machine

/-- How a command ends (R327). -/
inductive Completion where
  | ok
  | error (code : ErrCode)
  deriving DecidableEq, Repr

namespace State

/-- E[r] <- L (R13). -/
def setElem (s : State) (r : Reg) (L : Element) : State := { s with regs := s.regs.set r.toNat L r.isLt }

/-- RESULT <- v (R40). -/
def setResult (s : State) (v : Word) : State := { s with result := v }

/-- What the running command stages in the scratchpad buffers d0 and d1 (R44). -/
def stage (s : State) (a b : Element) : State := { s with d0 := a, d1 := b }

/-- The scratchpad scrub (R288). -/
def scrubScratch (s : State) : State :=
  { s with d0 := s.params.scrubbed, d1 := s.params.scrubbed, d2 := s.params.scrubbed }

/-- The integer of a loose result whose exact value is `V` (R157): `V` itself with LOOSE_EXACT, and otherwise `V` plus a
free multiple of p where that is in the WF range. DESIGN CHOICE (log 6): the form of the abstraction. -/
def looseValue (s : State) (V : Int) : Int :=
  let V' := V + s.params.prime * Config.freeMultiple s.draws
  if s.setup.looseExact then V
  else if -(2 : Int) ^ (s.params.n + 2) ≤ V' ∧ V' < 2 ^ (s.params.n + 2) then V' else V

/-- Writes the loose result of exact value `V` to E[rd] (R156, R157). -/
def writeLoose (s : State) (rd : Reg) (V : Int) : State :=
  { s.setElem rd (chain s.params (s.looseValue V)) with
    draws := if s.setup.looseExact then s.draws else s.draws + 1 }

/-- Records a model-level fault, the first one since reset (R326; log 1). -/
def reportUB (s : State) (u : UB) : State := { s with report := some (s.report.getD u) }

/-- The unspecified element of R148 and R326: every limb free (log 1). -/
def freeElement (s : State) : Element := (List.range s.params.numLimbs).map (Config.freeLimb s.draws)

/-- A model-level fault of a command that writes rd (R148, R188, R220, R326): rd is unspecified, and nothing else. -/
def ubElem (s : State) (u : UB) (rd : Reg) : State :=
  { (s.setElem rd s.freeElement).reportUB u with draws := s.draws + 1 }

/-- A model-level fault of a command that writes RESULT (R148, R326): RESULT is unspecified, and nothing else. -/
def ubResult (s : State) (u : UB) : State :=
  { (s.setResult (Config.freeResult s.draws)).reportUB u with draws := s.draws + 1 }

/-- PBUF <- an image, pad bytes 0, and PBUF_LEN <- PB (R283). -/
def writeImage (s : State) (byte : Nat → BitVec 8) : State :=
  { s with pbuf := imageWords s.params byte, pbufLen := BitVec.ofNat 16 s.params.packedBytes }

/-- A model-level fault of PACK (R148, R326): PACK writes neither rd nor RESULT, and no other state changes (log 1 for the
report). -/
def ubPack (s : State) : State := s.reportUB .operand

/-- The completion effects of every accepted command (R327). -/
def complete (s : State) (outcome : Completion) : State :=
  let t := s.scrubScratch
  { t with
    err := match outcome with | .ok => t.err | .error _ => true
    errCode := match outcome with | .ok => t.errCode | .error code => code
    done := true
    cmdCount := t.cmdCount + 1
    phase := .idle }

/-- A command that ends normally, as an outcome of `exec`. -/
def finish (s : State) : Host.Outcome State Fault Refusal := .next (s.complete .ok)

/-- A command that ends with a hardware error (`raise Error(code)`, R13, R327), as an outcome of `exec`. -/
def raise (s : State) (code : ErrCode) : Host.Outcome State Fault Refusal := .next (s.complete (.error code))

/-- Reset, hardware or soft (R360, R361): every value of R49, whatever was running (R362). The host's coming actions and
the model's count of draws are not the block's. -/
def resetBlock (s : State) : State := resetOf s.setup s.inputs s.draws

end State

end Sys2Proof.Machine
end

