-- ==== Sys2Proof/Machine/AddSub.lean ====
section
/-! DEFINITION. ADD, SUB, NEG, ADDS and SUBS, the commands of the adder and the subtractor (41_add_sub.md R182 to R188). -/

namespace Sys2Proof.Machine

/-- A pairwise command: its operands are checked (R148), and the loose result of exact value `V` is written. -/
def pairwise (s : State) (rd rs1 rs2 : Reg) (V : Int) : Host.Outcome State Fault Refusal :=
  if s.operandOk rs1 && s.operandOk rs2 then (s.writeLoose rd V).finish else (s.ubElem .operand rd).finish

/-- A command with one register operand and SCALAR: UB_OPERAND is checked before UB_SCALAR (R325), and the loose result
of exact value `V` is written. -/
def withScalar (s : State) (rd rs1 : Reg) (scalarOk : Bool) (V : Int) : Host.Outcome State Fault Refusal :=
  if s.operandOk rs1 then
    if scalarOk then (s.writeLoose rd V).finish else (s.ubElem .scalar rd).finish
  else (s.ubElem .operand rd).finish

/-- ADD rd, rs1, rs2 (R182). -/
def execAdd (rd rs1 rs2 : Reg) (s : State) : Host.Outcome State Fault Refusal :=
  pairwise s rd rs1 rs2 (fold s.params (s.elemVal rs1) + fold s.params (s.elemVal rs2))

/-- SUB rd, rs1, rs2 (R183): E[rs1] − E[rs2]. -/
def execSub (rd rs1 rs2 : Reg) (s : State) : Host.Outcome State Fault Refusal :=
  pairwise s rd rs1 rs2 (fold s.params (s.elemVal rs1) - fold s.params (s.elemVal rs2))

/-- NEG rd, rs1 (R184). -/
def execNeg (rd rs1 : Reg) (s : State) : Host.Outcome State Fault Refusal :=
  if s.operandOk rs1 then (s.writeLoose rd (-fold s.params (s.elemVal rs1))).finish
  else (s.ubElem .operand rd).finish

/-- ADDS rd, rs1 (R186): add SCALAR. -/
def execAdds (rd rs1 : Reg) (s : State) : Host.Outcome State Fault Refusal :=
  withScalar s rd rs1 (inAddRange s.params s.scalar) (fold s.params (s.elemVal rs1) + s.scalarInt)

/-- SUBS rd, rs1 (R187): subtract SCALAR. -/
def execSubs (rd rs1 : Reg) (s : State) : Host.Outcome State Fault Refusal :=
  withScalar s rd rs1 (inAddRange s.params s.scalar) (fold s.params (s.elemVal rs1) - s.scalarInt)

end Sys2Proof.Machine
end

