-- ==== Sys2Proof/Machine/CarryNorm.lean ====
section
/-! DEFINITION. REDUCE and NORM, the commands of the carry propagator and the limb normalizer (40_limb_model.md R152,
R153). -/

namespace Sys2Proof.Machine

/-- REDUCE rd, rs1 (R152): one carry-fold pass, loose. -/
def execReduce (rd rs1 : Reg) (s : State) : Host.Outcome State Fault Refusal :=
  if s.operandOk rs1 then (s.writeLoose rd (fold s.params (s.elemVal rs1))).finish
  else (s.ubElem .operand rd).finish

/-- NORM rd, rs1 (R153): the canonical representative. Its data path (R154) holds the operand folded twice in d0 and the
result in d1. -/
def execNorm (rd rs1 : Reg) (s : State) : Host.Outcome State Fault Refusal :=
  if s.operandOk rs1 then
    let p := s.params
    let t := s.stage (chain p (fold p (fold p (s.elemVal rs1)))) (canon p (s.elemVal rs1))
    (t.setElem rd t.d1).finish
  else (s.ubElem .operand rd).finish

end Sys2Proof.Machine
end

