-- ==== Sys2Proof/Syntax.lean ====
section
/-! DEFINITION. The PFC-1 v1 command set, one constructor for each row of the opcode map (30_encoding.md R105). A
register operand is the 4-bit field of the command word that names it (R103). -/

namespace Sys2Proof

/-- A command of PFC-1 v1. -/
inductive Instr where
  /-- 0x00 (R291). -/
  | nop
  /-- 0x01 (R182). -/
  | add (rd rs1 rs2 : Reg)
  /-- 0x02 (R183). -/
  | sub (rd rs1 rs2 : Reg)
  /-- 0x03 (R184). -/
  | neg (rd rs1 : Reg)
  /-- 0x04 (R186). -/
  | adds (rd rs1 : Reg)
  /-- 0x05 (R187). -/
  | subs (rd rs1 : Reg)
  /-- 0x08 (R218). -/
  | mul (rd rs1 rs2 : Reg)
  /-- 0x09 (R219). -/
  | sqr (rd rs1 : Reg)
  /-- 0x0A (R220). -/
  | muls (rd rs1 : Reg)
  /-- 0x0C (R152). -/
  | reduce (rd rs1 : Reg)
  /-- 0x0D (R153). -/
  | norm (rd rs1 : Reg)
  /-- 0x10 (R244). -/
  | inv (rd rs1 : Reg)
  /-- 0x11 (R245). -/
  | div (rd rs1 rs2 : Reg)
  /-- 0x12 (R246). -/
  | sqrt (rd rs1 : Reg)
  /-- 0x13 (R250). -/
  | isqrt (rd rs1 : Reg)
  /-- 0x14 (R251). -/
  | leg (rs1 : Reg)
  /-- 0x15 (R252). -/
  | legq (rs1 : Reg)
  /-- 0x18 (R281). -/
  | unpack (rd : Reg)
  /-- 0x19 (R283). -/
  | pack (rs1 : Reg)
  /-- 0x1C (R285). -/
  | mov (rd rs1 : Reg)
  /-- 0x1D (R286). -/
  | seti (rd : Reg)
  /-- 0x1E (R287). -/
  | scrub (rd : Reg)
  /-- 0x20 (R289). -/
  | cmpeq (rs1 rs2 : Reg)
  /-- 0x21 (R290). -/
  | iszero (rs1 : Reg)
  deriving DecidableEq, Repr

/-- The six formats of R102: which register fields a command uses. -/
inductive Format where
  /-- rd, rs1, rs2. -/
  | r3
  /-- rd, rs1. -/
  | r2
  /-- rd. -/
  | r1d
  /-- rs1. -/
  | r1s
  /-- rs1, rs2. -/
  | r2s
  /-- no field. -/
  | r0
  deriving DecidableEq, Repr

end Sys2Proof
end

