-- ==== Sys2Proof/Decode.lean ====
section
/-! DEFINITION. Decoding and encoding of command words (30_encoding.md R100 to R108). `decode` is total: a word that R107
makes illegal on every instance is `none`. LEGQ alone depends on the instance (R106); `decodeOn` adds that check. -/

namespace Sys2Proof

/-- The mask of a format: a 1 at every bit that must match the opcode row (R102). -/
def Format.mask : Format → CmdWord
  | .r3 => 0xFFF000FF#32
  | .r2 => 0xFFFF00FF#32
  | .r1d => 0xFFFFF0FF#32
  | .r1s => 0xFFFF0FFF#32
  | .r2s => 0xFFF00FFF#32
  | .r0 => 0xFFFFFFFF#32

/-- The opcode field, bits [7:0] (R101). -/
def opcodeField (w : CmdWord) : BitVec 8 := w.extractLsb' 0 8

/-- The rd field, bits [11:8] (R101). -/
def rdField (w : CmdWord) : Reg := w.extractLsb' 8 4

/-- The rs1 field, bits [15:12] (R101). -/
def rs1Field (w : CmdWord) : Reg := w.extractLsb' 12 4

/-- The rs2 field, bits [19:16] (R101). -/
def rs2Field (w : CmdWord) : Reg := w.extractLsb' 16 4

/-- The opcode map of R105: the format of an opcode and the command that the three register fields then name. An opcode
that R107(a) leaves unassigned has no row. -/
def opcodeRow (op : BitVec 8) (rd rs1 rs2 : Reg) : Option (Format × Instr) :=
  match op with
  | 0x00#8 => some (.r0, .nop)
  | 0x01#8 => some (.r3, .add rd rs1 rs2)
  | 0x02#8 => some (.r3, .sub rd rs1 rs2)
  | 0x03#8 => some (.r2, .neg rd rs1)
  | 0x04#8 => some (.r2, .adds rd rs1)
  | 0x05#8 => some (.r2, .subs rd rs1)
  | 0x08#8 => some (.r3, .mul rd rs1 rs2)
  | 0x09#8 => some (.r2, .sqr rd rs1)
  | 0x0A#8 => some (.r2, .muls rd rs1)
  | 0x0C#8 => some (.r2, .reduce rd rs1)
  | 0x0D#8 => some (.r2, .norm rd rs1)
  | 0x10#8 => some (.r2, .inv rd rs1)
  | 0x11#8 => some (.r3, .div rd rs1 rs2)
  | 0x12#8 => some (.r2, .sqrt rd rs1)
  | 0x13#8 => some (.r2, .isqrt rd rs1)
  | 0x14#8 => some (.r1s, .leg rs1)
  | 0x15#8 => some (.r1s, .legq rs1)
  | 0x18#8 => some (.r1d, .unpack rd)
  | 0x19#8 => some (.r1s, .pack rs1)
  | 0x1C#8 => some (.r2, .mov rd rs1)
  | 0x1D#8 => some (.r1d, .seti rd)
  | 0x1E#8 => some (.r1d, .scrub rd)
  | 0x20#8 => some (.r2s, .cmpeq rs1 rs2)
  | 0x21#8 => some (.r1s, .iszero rs1)
  | _ => none

/-- The decode of R106, but for its LEGQ line: the opcode is in the map, and every bit of the format's mask matches. -/
def decode (w : CmdWord) : Option Instr :=
  match opcodeRow (opcodeField w) (rdField w) (rs1Field w) (rs2Field w) with
  | none => none
  | some (fmt, i) => if w &&& fmt.mask = (opcodeField w).setWidth 32 then some i else none

/-- Whether a command exists on an instance: LEGQ does not where p ≡ 3 (mod 4) (R106, R107(d), R252). -/
def Instr.existsOn (p : Params) : Instr → Bool
  | .legq _ => p.pclass != 1
  | _ => true

/-- The decode of R106 whole, on an instance with parameter set `p`. -/
def decodeOn (p : Params) (w : CmdWord) : Option Instr :=
  (decode w).filter (·.existsOn p)

/-- The word of a command, by R102's layouts: `000000000000 rs2 rs1 rd opcode`, an unused field 0. -/
def layout (op : BitVec 8) (rd rs1 rs2 : Reg) : CmdWord := 0#12 ++ rs2 ++ rs1 ++ rd ++ op

/-- The opcode of a command (R105). -/
def Instr.opcode : Instr → BitVec 8
  | .nop => 0x00#8
  | .add .. => 0x01#8
  | .sub .. => 0x02#8
  | .neg .. => 0x03#8
  | .adds .. => 0x04#8
  | .subs .. => 0x05#8
  | .mul .. => 0x08#8
  | .sqr .. => 0x09#8
  | .muls .. => 0x0A#8
  | .reduce .. => 0x0C#8
  | .norm .. => 0x0D#8
  | .inv .. => 0x10#8
  | .div .. => 0x11#8
  | .sqrt .. => 0x12#8
  | .isqrt .. => 0x13#8
  | .leg .. => 0x14#8
  | .legq .. => 0x15#8
  | .unpack .. => 0x18#8
  | .pack .. => 0x19#8
  | .mov .. => 0x1C#8
  | .seti .. => 0x1D#8
  | .scrub .. => 0x1E#8
  | .cmpeq .. => 0x20#8
  | .iszero .. => 0x21#8

/-- The format of a command (R105). -/
def Instr.format : Instr → Format
  | .nop => .r0
  | .add .. | .sub .. | .mul .. | .div .. => .r3
  | .neg .. | .adds .. | .subs .. | .sqr .. | .muls .. | .reduce .. | .norm .. | .inv .. | .sqrt .. | .isqrt ..
  | .mov .. => .r2
  | .leg .. | .legq .. | .pack .. | .iszero .. => .r1s
  | .unpack .. | .seti .. | .scrub .. => .r1d
  | .cmpeq .. => .r2s

/-- The command word of a command (R102, R105). -/
def encode (i : Instr) : CmdWord :=
  match i with
  | .nop => layout i.opcode 0 0 0
  | .add rd rs1 rs2 | .sub rd rs1 rs2 | .mul rd rs1 rs2 | .div rd rs1 rs2 => layout i.opcode rd rs1 rs2
  | .neg rd rs1 | .adds rd rs1 | .subs rd rs1 | .sqr rd rs1 | .muls rd rs1 | .reduce rd rs1 | .norm rd rs1
  | .inv rd rs1 | .sqrt rd rs1 | .isqrt rd rs1 | .mov rd rs1 => layout i.opcode rd rs1 0
  | .leg rs1 | .legq rs1 | .pack rs1 | .iszero rs1 => layout i.opcode 0 rs1 0
  | .unpack rd | .seti rd | .scrub rd => layout i.opcode rd 0 0
  | .cmpeq rs1 rs2 => layout i.opcode 0 rs1 rs2

/-- The instruction the decoder reads from an instruction whose bits are `w`, of which the table gives `nbits`: one
32-bit word, which the host writes to CMD (R38, R100). -/
def decodeTableWord (nbits w : Nat) : Option Instr := decode (BitVec.ofNat 32 (w % 2 ^ nbits))

end Sys2Proof
end

