-- ==== Sys2Proof/Machine/Modular.lean ====
section
/-! DEFINITION. Powers mod p and the square-root formulas (43_power_ladders.md R241, R243, R247 to R249). The residues
here are natural numbers in [0, p). -/

namespace Sys2Proof.Machine

/-- Square and multiply on the low `k` bits of the exponent, least significant bit first. -/
def powModBits (m : Nat) : Nat → Nat → Nat → Nat → Nat
  | 0, _, _, acc => acc
  | k + 1, b, e, acc => powModBits m k (b * b % m) (e / 2) (if e % 2 = 1 then acc * b % m else acc)

/-- pow_p (R241): x^e mod m, by square and multiply over the bits of e. -/
def powMod (m x e : Nat) : Nat := powModBits m (Nat.log2 e + 1) (x % m) e (1 % m)

/-- The exponent p − 2 of INV and DIV (R243). -/
def expInv (p : Params) : Nat := p.prime - 2

/-- The exponent (p − 1)/2 of LEG (R243). -/
def expLeg (p : Params) : Nat := (p.prime - 1) / 2

/-- The exponent (p + 1)/4 of SQRT where p ≡ 3 (mod 4) (R243). -/
def expSqrt34 (p : Params) : Nat := (p.prime + 1) / 4

/-- The exponent (3p − 5)/4 of the single ISQRT ladder where p ≡ 3 (mod 4) (R243, R250). -/
def expIsqrt34 (p : Params) : Nat := (3 * p.prime - 5) / 4

/-- The exponent (p + 3)/8 of SQRT where p ≡ 5 (mod 8) (R243). -/
def expSqrt58 (p : Params) : Nat := (p.prime + 3) / 8

/-- The exponent (p − 1)/4 of LEGQ and of the SQRT flag where p ≡ 5 (mod 8) (R243). -/
def expQuartic (p : Params) : Nat := (p.prime - 1) / 4

/-- The multiplicative inverse of a residue, by the ladder of exponent p − 2; of 0 it is 0 (R244). -/
def invMod (p : Params) (x : Nat) : Nat := powMod p.prime x (expInv p)

/-- The correction constant I of the constant store, canon(2^((p−1)/4) mod p) (R45, R249): its limbs. Only p ≡ 5 (mod 8)
sets hold one. -/
def constI (p : Params) : Option Element :=
  if p.pclass = 2 then some (canon p (powMod p.prime 2 (expQuartic p) : Nat)) else none

/-- The limbs of p in the constant store (R45). -/
def constP (p : Params) : Element := chain p (p.prime : Int)

/-- The residue of sqrt34 (R247). -/
def sqrt34 (p : Params) (x : Nat) : Nat := powMod p.prime x (expSqrt34 p)

/-- The residue of sqrt58 (R248): r·m, m the correction factor where the quartic symbol of x is −1. Written as R248 has
it, m = flag·(I − 1) + 1 mod p, with I read from the constant store. -/
def sqrt58 (p : Params) (x : Nat) : Nat :=
  let r := powMod p.prime x (expSqrt58 p)
  let q := powMod p.prime x (expQuartic p)
  let flag := if q = p.prime - 1 then 1 else 0
  let I := ((constI p).map (residue p)).getD 1
  let m := (flag * (I - 1) + 1) % p.prime
  r * m % p.prime

/-- The residue SQRT computes (R246): sqrt34 where PCLASS is 1, sqrt58 otherwise. -/
def sqrtMod (p : Params) (x : Nat) : Nat := if p.pclass = 1 then sqrt34 p x else sqrt58 p x

end Sys2Proof.Machine
end

