-- ==== Sys2Proof/Machine/Ladders.lean ====
section
/-! DEFINITION. INV, DIV, SQRT, ISQRT, LEG and LEGQ, the commands of the power ladders (43_power_ladders.md R244 to R253). A
non-residue under SQRT or ISQRT has the formula's value, R253's default (log 16). -/

namespace Sys2Proof.Machine

/-- A residue as a Normalized vector (R146, R240). -/
def canonNat (p : Params) (x : Nat) : Element := canon p x

/-- INV rd, rs1 (R244): the divisor is staged in d0. -/
def execInv (rd rs1 : Reg) (s : State) : Host.Outcome State Fault Refusal :=
  if s.operandOk rs1 then
    let t := s.stage (s.elem rs1) s.d1
    (t.setElem rd (canonNat t.params (invMod t.params (residue t.params t.d0)))).finish
  else (s.ubElem .operand rd).finish

/-- DIV rd, rs1, rs2 (R245): the divisor E[rs2] is staged in d0; a zero divisor gives 0. -/
def execDiv (rd rs1 rs2 : Reg) (s : State) : Host.Outcome State Fault Refusal :=
  if s.operandOk rs1 && s.operandOk rs2 then
    let xa := s.elemResidue rs1
    let t := s.stage (s.elem rs2) s.d1
    let yb := invMod t.params (residue t.params t.d0)
    (t.setElem rd (canonNat t.params (xa * yb % t.params.prime))).finish
  else (s.ubElem .operand rd).finish

/-- SQRT rd, rs1 (R246 to R248). -/
def execSqrt (rd rs1 : Reg) (s : State) : Host.Outcome State Fault Refusal :=
  if s.operandOk rs1 then (s.setElem rd (canonNat s.params (sqrtMod s.params (s.elemResidue rs1)))).finish
  else (s.ubElem .operand rd).finish

/-- ISQRT rd, rs1 (R250): the inverse of the square root. -/
def execIsqrt (rd rs1 : Reg) (s : State) : Host.Outcome State Fault Refusal :=
  if s.operandOk rs1 then
    (s.setElem rd (canonNat s.params (invMod s.params (sqrtMod s.params (s.elemResidue rs1))))).finish
  else (s.ubElem .operand rd).finish

/-- LEG rs1 (R251): the Legendre symbol of the copy staged in d0. -/
def execLeg (rs1 : Reg) (s : State) : Host.Outcome State Fault Refusal :=
  if s.operandOk rs1 then
    let t := s.stage (s.elem rs1) s.d1
    (t.setResult (legendreCode (powMod t.params.prime (residue t.params t.d0) (expLeg t.params)))).finish
  else (s.ubResult .operand).finish

/-- LEGQ rs1 (R252): the quartic symbol of the copy staged in d0. On an instance with p ≡ 3 (mod 4) the word fails decode
and the command ends with ILLEGAL (R106, R322). -/
def execLegq (rs1 : Reg) (s : State) : Host.Outcome State Fault Refusal :=
  if (Instr.legq rs1).existsOn s.params then
    if s.operandOk rs1 then
      let t := s.stage (s.elem rs1) s.d1
      (t.setResult (quarticCode t.params (powMod t.params.prime (residue t.params t.d0) (expQuartic t.params)))).finish
    else (s.ubResult .operand).finish
  else s.raise .illegal

end Sys2Proof.Machine
end

