-- ==== Sys2Proof/Machine/MulSquare.lean ====
section
/-! DEFINITION. MUL, SQR and MULS, the commands of the multiplier and the squarer (42_mul_square.md R218 to R220). -/

namespace Sys2Proof.Machine

/-- The exact value of a loose product of value `P` (R218): (P mod 2^n) + fold(c·floor(P / 2^n)). -/
def reduceProduct (p : Params) (P : Int) : Int := P % 2 ^ p.n + fold p (p.c * (P / 2 ^ p.n))

/-- MUL rd, rs1, rs2 (R218). -/
def execMul (rd rs1 rs2 : Reg) (s : State) : Host.Outcome State Fault Refusal :=
  pairwise s rd rs1 rs2 (reduceProduct s.params (s.elemVal rs1 * s.elemVal rs2))

/-- SQR rd, rs1 (R219): limb for limb the MUL of E[rs1] by itself. -/
def execSqr (rd rs1 : Reg) (s : State) : Host.Outcome State Fault Refusal :=
  pairwise s rd rs1 rs1 (reduceProduct s.params (s.elemVal rs1 * s.elemVal rs1))

/-- MULS rd, rs1 (R220): multiply by SCALAR, one fold. -/
def execMuls (rd rs1 : Reg) (s : State) : Host.Outcome State Fault Refusal :=
  withScalar s rd rs1 (inMulRange s.params s.scalar) (fold s.params (s.elemVal rs1 * s.scalarInt))

end Sys2Proof.Machine
end

