-- ==== Sys2Proof/Machine/PackHygiene.lean ====
section
/-! DEFINITION. UNPACK, PACK, MOV, SETI, SCRUB, CMPEQ, ISZERO and NOP: data movement, element lifecycle and queries
(44_pack_hygiene.md R281 to R291). -/

namespace Sys2Proof.Machine

/-- UNPACK rd (R281, R282): too few bytes is the error SHAPE, which leaves rd scrubbed. -/
def execUnpack (rd : Reg) (s : State) : Host.Outcome State Fault Refusal :=
  let p := s.params
  if s.pbufLen.toNat < p.packedBytes then (s.setElem rd p.scrubbed).raise .shape
  else (s.setElem rd (chain p (s.imageValue p.packedBytes : Int))).finish

/-- PACK rs1 (R283): the canonical bytes of E[rs1], normalized in the scratchpad, to PBUF. An operand
that is not WF leaves PBUF and PBUF_LEN as they are (R148). -/
def execPack (rs1 : Reg) (s : State) : Host.Outcome State Fault Refusal :=
  if s.operandOk rs1 then
    let t := s.stage (canon s.params (s.elemVal rs1)) s.d1
    (t.writeImage (valueByte (val t.params t.d0).toNat)).finish
  else s.ubPack.finish

/-- MOV rd, rs1 (R285): every limb, any pattern, no check. -/
def execMov (rd rs1 : Reg) (s : State) : Host.Outcome State Fault Refusal :=
  (s.setElem rd (s.elem rs1)).finish

/-- SETI rd (R286): the small integer SCALAR, exact (R156). -/
def execSeti (rd : Reg) (s : State) : Host.Outcome State Fault Refusal :=
  if inAddRange s.params s.scalar then (s.setElem rd (chain s.params s.scalarInt)).finish
  else (s.ubElem .scalar rd).finish

/-- SCRUB rd (R287). -/
def execScrub (rd : Reg) (s : State) : Host.Outcome State Fault Refusal :=
  (s.setElem rd s.params.scrubbed).finish

/-- CMPEQ rs1, rs2 (R289): RESULT is the DIFF bit of the normalized operands, staged in d0 and d1. -/
def execCmpeq (rs1 rs2 : Reg) (s : State) : Host.Outcome State Fault Refusal :=
  if s.operandOk rs1 && s.operandOk rs2 then
    let t := s.stage (canon s.params (s.elemVal rs1)) (canon s.params (s.elemVal rs2))
    (t.setResult (diffBit t.d0 t.d1)).finish
  else (s.ubResult .operand).finish

/-- ISZERO rs1 (R290): RESULT is 1 for zero, from the normalized operand staged in d0. -/
def execIszero (rs1 : Reg) (s : State) : Host.Outcome State Fault Refusal :=
  if s.operandOk rs1 then
    let t := s.stage (canon s.params (s.elemVal rs1)) s.d1
    (t.setResult (zeroBit t.d0)).finish
  else (s.ubResult .operand).finish

/-- NOP (R291): it completes like any command. -/
def execNop (s : State) : Host.Outcome State Fault Refusal := s.finish

end Sys2Proof.Machine
end

