-- ==== Sys2Proof/Machine/Dispatch.lean ====
section
/-! DEFINITION. The run of one command, from its operands to its completion effects (60_exceptions.md R327): one arm for each
constructor of Instr. -/

namespace Sys2Proof.Machine

def exec (i : Instr) (s : State) : Host.Outcome State Fault Refusal :=
  match i with
  | .nop => Sys2Proof.Machine.execNop s
  | .add rd rs1 rs2 => Sys2Proof.Machine.execAdd rd rs1 rs2 s
  | .sub rd rs1 rs2 => Sys2Proof.Machine.execSub rd rs1 rs2 s
  | .neg rd rs1 => Sys2Proof.Machine.execNeg rd rs1 s
  | .adds rd rs1 => Sys2Proof.Machine.execAdds rd rs1 s
  | .subs rd rs1 => Sys2Proof.Machine.execSubs rd rs1 s
  | .mul rd rs1 rs2 => Sys2Proof.Machine.execMul rd rs1 rs2 s
  | .sqr rd rs1 => Sys2Proof.Machine.execSqr rd rs1 s
  | .muls rd rs1 => Sys2Proof.Machine.execMuls rd rs1 s
  | .reduce rd rs1 => Sys2Proof.Machine.execReduce rd rs1 s
  | .norm rd rs1 => Sys2Proof.Machine.execNorm rd rs1 s
  | .inv rd rs1 => Sys2Proof.Machine.execInv rd rs1 s
  | .div rd rs1 rs2 => Sys2Proof.Machine.execDiv rd rs1 rs2 s
  | .sqrt rd rs1 => Sys2Proof.Machine.execSqrt rd rs1 s
  | .isqrt rd rs1 => Sys2Proof.Machine.execIsqrt rd rs1 s
  | .leg rs1 => Sys2Proof.Machine.execLeg rs1 s
  | .legq rs1 => Sys2Proof.Machine.execLegq rs1 s
  | .unpack rd => Sys2Proof.Machine.execUnpack rd s
  | .pack rs1 => Sys2Proof.Machine.execPack rs1 s
  | .mov rd rs1 => Sys2Proof.Machine.execMov rd rs1 s
  | .seti rd => Sys2Proof.Machine.execSeti rd s
  | .scrub rd => Sys2Proof.Machine.execScrub rd s
  | .cmpeq rs1 rs2 => Sys2Proof.Machine.execCmpeq rs1 rs2 s
  | .iszero rs1 => Sys2Proof.Machine.execIszero rs1 s

end Sys2Proof.Machine
end

