-- ==== Sys2Proof/Machine/HostPort.lean ====
section
/-! DEFINITION. The host register interface: the map of 20_memory.md R71, reads (R73, R74, R83, 60_exceptions.md R338) and
writes (R74, R324, 10_state.md R36 to R41), acceptance of a command (R38, 70_reset_and_hazards.md R368), and the host's half
of a clock cycle. -/

namespace Sys2Proof.Machine

/-- The registers of the map (R71). -/
inductive HostReg where
  | id
  | cfg
  | ctrl
  | status
  | cmd
  | scalar
  | result
  | cmdCount
  | pbufLen
  | pbuf (w : Nat)
  | limb (r : Reg) (i : Nat)
  | reserved
  deriving DecidableEq, Repr

/-- The register at an aligned byte offset from BASE (R71). -/
def regAt (p : Params) (off : Nat) : HostReg :=
  if off = 0x0000 then .id
  else if off = 0x0008 then .cfg
  else if off = 0x0010 then .ctrl
  else if off = 0x0018 then .status
  else if off = 0x0020 then .cmd
  else if off = 0x0028 then .scalar
  else if off = 0x0030 then .result
  else if off = 0x0038 then .cmdCount
  else if off = 0x0040 then .pbufLen
  else if 0x0100 ≤ off ∧ off < 0x0100 + 8 * p.pbufWords then .pbuf ((off - 0x0100) / 8)
  else if 0x1000 ≤ off ∧ off < 0x1000 + 8 * (Params.numRegs * p.numLimbs) then
    .limb (BitVec.ofNat 4 ((off - 0x1000) / 8 / p.numLimbs)) ((off - 0x1000) / 8 % p.numLimbs)
  else .reserved

/-- The size of the register window, 8 KiB (R70). -/
def windowSize : Nat := 0x2000

/-- The offset of a bus address in the register window at BASE (R70, R71). -/
def offsetOf (s : State) (addr : Nat) : Option Nat :=
  let base := s.setup.platform.base
  if base ≤ addr ∧ addr < base + windowSize then some (addr - base) else none

/-- The one kind of access that does anything: 64 bits wide, at an offset that is a multiple of 8 (R72). DESIGN CHOICE
(log 26): alignment is that of the offset from BASE, for any BASE; the spec does not say that BASE is a multiple of 8. -/
def accessTaken (off bytes : Nat) : Bool := bytes == 8 && off % 8 == 0

/-- Registers whose reads while BUSY = 1 are unspecified (R83, R371). -/
def HostReg.freeWhileBusy : HostReg → Bool
  | .result | .pbufLen | .pbuf _ | .limb _ _ => true
  | .id | .cfg | .ctrl | .status | .cmd | .scalar | .cmdCount | .reserved => false

namespace State

/-- A register's current value as the host reads it (R73, R338, R35 to R43). -/
def regValue (s : State) : HostReg → Word
  | .id => s.params.idWord
  | .cfg => s.params.cfgWord
  | .ctrl => s.ctrlWord
  | .status => s.statusWord
  | .cmd => s.cmd.setWidth 64
  | .scalar => s.scalar
  | .result => s.result
  | .cmdCount => s.cmdCount
  | .pbufLen => s.pbufLen.setWidth 64
  | .pbuf w => s.pbuf.getD w 0#64
  | .limb r i => (s.elem r).getD i 0#64
  | .reserved => 0#64

/-- HostRead of an aligned offset (R74, R83): the current value, or a free draw. -/
def hostRead (s : State) (off : Nat) : Word :=
  let r := regAt s.params off
  if s.isBusy && r.freeWhileBusy then Config.freeRead s.draws else s.regValue r

/-- The state after such a read: no side effect (R74), one draw used where the value was free. -/
def afterRead (s : State) (off : Nat) : State :=
  { s with draws := if s.isBusy && (regAt s.params off).freeWhileBusy then s.draws + 1 else s.draws }

/-- LAT of a command word (R368): of its opcode, or of ILLEGAL where it fails decode on this instance. -/
def latency (s : State) (w : CmdWord) : Nat :=
  match decodeOn s.params w with
  | none => s.setup.latency.illegalExtra + 1
  | some i => ((s.setup.latency.extra.find? (fun e => e.1 == i.opcode)).map (·.2)).getD 0 + 1

/-- Acceptance of a command word (R38): BUSY becomes 1 and CMD reads the word. -/
def accept (s : State) (w : CmdWord) : State := { s with cmd := w, phase := .busy w (s.latency w) }

/-- A write that BUSY = 1 drops (R324), or else has its effect. -/
def whenIdle (s t : State) : State := if s.isBusy then s.setOverrun else t

/-- HostWrite of an aligned offset (R73, R74, R371). -/
def hostWrite (s : State) (off : Nat) (v : Word) : State :=
  match regAt s.params off with
  | .ctrl => if v.getLsbD 1 then s.resetBlock else { s with ie := v.getLsbD 0 }
  | .status => s.writeStatus v
  | .cmd => s.whenIdle (s.accept (v.setWidth 32))
  | .scalar => s.whenIdle { s with scalar := v }
  | .pbufLen => s.whenIdle { s with pbufLen := v.setWidth 16 }
  | .pbuf w => s.whenIdle { s with pbuf := s.pbuf.set w v }
  | .id | .cfg | .result | .cmdCount | .limb _ _ | .reserved => s

/-- A host access, by bus address and width (R70, R72). An access of another width or alignment does nothing and reads 0,
and sets no flag, BUSY or not. -/
def access (s : State) : Access → Host.Outcome State Fault Refusal
  | .read addr bytes =>
    match offsetOf s addr with
    | none => .fault .outsideWindow
    | some off =>
      if accessTaken off bytes then .next { s.afterRead off with readData := some (s.hostRead off) }
      else .next { s with readData := some 0#64 }
  | .write addr bytes v =>
    match offsetOf s addr with
    | none => .fault .outsideWindow
    | some off => .next (if accessTaken off bytes then s.hostWrite off v else s)

/-- The host's half of a clock cycle (R370; log 7): the next entry of the host's list, which is taken off the list, but for
a wait in a cycle that begins with BUSY = 1. -/
def hostHalf (s : State) : Host.Outcome State Fault Refusal :=
  let quiet := { s with readData := none }
  match s.inputs with
  | [] => .next quiet
  | op :: rest =>
    let t := { quiet with inputs := rest }
    match op with
    | .idle => .next t
    | .wait => .next (if s.isBusy then quiet else t)
    | .reset => .next t.resetBlock
    | .resetWith _ => .refused .accessDuringReset
    | .access a => t.access a

end State

end Sys2Proof.Machine
end

