-- ==== Sys2Proof/Machine/Sequencer.lean ====
section
/-! DEFINITION. The sequencer's half of a clock cycle (10_state.md R46, 70_reset_and_hazards.md R368). -/

namespace Sys2Proof.Machine

/-- The accepted word runs: the decoded command (30_encoding.md R106), or completion with ILLEGAL where it fails decode
(60_exceptions.md R322). Decode depends on the instance alone (R108), so the cycle it is done in does not matter (log 8). -/
def runWord (w : CmdWord) (s : State) : Host.Outcome State Fault Refusal :=
  match decode w with
  | some i => exec i s
  | none => s.raise .illegal

/-- A cycle of the sequencer: idle, or one cycle of BUSY, in the last of which the command completes (R368). -/
def sequencerHalf (s : State) : Host.Outcome State Fault Refusal :=
  match s.phase with
  | .idle => .next s
  | .busy w left => if left ≤ 1 then runWord w s else .next { s with phase := .busy w (left - 1) }

end Sys2Proof.Machine
end

