-- ==== Sys2Proof/Machine/Step.lean ====
section
/-! DEFINITION. One step of the machine, a clock cycle: the host's half, then the sequencer's (log 7). -/

namespace Sys2Proof.Machine

/-- One clock cycle. The host's access takes effect before the sequencer's half, so a hardware set of a STATUS bit wins over
a W1C clear, and a write in the cycle that completes a command is dropped (60_exceptions.md R325). -/
def step (s : State) : Host.Outcome State Fault Refusal :=
  match s.hostHalf with
  | .next t => sequencerHalf t
  | .fault r => .fault r
  | .refused r => .refused r

/-- The state in which the host is about to write the command word of the low `nbits` bits of `w` to CMD, with the block idle
and LAT = 1, so that the next step accepts and completes it (log 14). -/
def State.withFetchWord (s : State) (nbits w : Nat) : State :=
  { s with
    phase := .idle
    setup := { s.setup with latency := Latency.minimal }
    inputs := .access (.write (s.setup.platform.base + 0x0020) 8 (BitVec.ofNat 64 (w % 2 ^ nbits))) :: s.inputs }

end Sys2Proof.Machine
end

