-- ==== Sys2Proof/Machine/Widths.lean ====
section
/-! DEFINITION. The interval analysis of the data paths over all WF inputs and all in-range scalars (42_mul_square.md R221),
which decides 00_scope.md R8(h): every data-path intermediate fits its stated width. -/

namespace Sys2Proof.Machine

/-- An interval of integers, both ends included. -/
structure Range where
  lo : Int
  hi : Int
  deriving DecidableEq, Repr

namespace Range

/-- The interval of one value. -/
def point (x : Int) : Range := ⟨x, x⟩

/-- Sum of two intervals. -/
def add (a b : Range) : Range := ⟨a.lo + b.lo, a.hi + b.hi⟩

/-- Negation of an interval. -/
def neg (a : Range) : Range := ⟨-a.hi, -a.lo⟩

/-- Product of two intervals. -/
def mul (a b : Range) : Range :=
  ⟨min (min (a.lo * b.lo) (a.lo * b.hi)) (min (a.hi * b.lo) (a.hi * b.hi)),
   max (max (a.lo * b.lo) (a.lo * b.hi)) (max (a.hi * b.lo) (a.hi * b.hi))⟩

/-- Arithmetic right shift of an interval. -/
def asr (a : Range) (k : Nat) : Range := ⟨a.lo / 2 ^ k, a.hi / 2 ^ k⟩

/-- Left shift of an interval. -/
def shl (a : Range) (k : Nat) : Range := ⟨a.lo * 2 ^ k, a.hi * 2 ^ k⟩

/-- An interval masked to `k` bits: itself where it lies in them. -/
def mask (a : Range) (k : Nat) : Range :=
  if 0 ≤ a.lo ∧ a.hi < 2 ^ k then a else ⟨0, 2 ^ k - 1⟩

/-- The least signed container width of an integer. -/
def bitsOf : Int → Nat
  | .ofNat x => if x = 0 then 1 else Nat.log2 x + 2
  | .negSucc x => if x = 0 then 1 else Nat.log2 x + 2

/-- The least signed container width of an interval. -/
def width (a : Range) : Nat := max (bitsOf a.lo) (bitsOf a.hi)

end Range

/-- The worst-case width of a list of intervals. -/
def widthOf (rs : List Range) : Nat := rs.foldl (fun w r => max w r.width) 0

/-- A limb in [0, 2^DB). -/
def lowRange (p : Params) : Range := ⟨0, 2 ^ p.db - 1⟩

/-- The top limb of a WF vector (R144). -/
def topRange (p : Params) : Range := ⟨-(2 ^ (p.hdb + 2)), 2 ^ (p.hdb + 2) - 1⟩

/-- The limbs of a WF vector (R144). -/
def wfRanges (p : Params) : List Range := List.replicate (p.numLimbs - 1) (lowRange p) ++ [topRange p]

/-- Half-limbs of limbs (R211). -/
def halfRanges (p : Params) : List Range → List Range
  | [] => []
  | r :: rs => r.mask p.mdb :: r.asr p.mdb :: halfRanges p rs

/-- A carry chain (R149): the intervals of the sums before masking, and of the masked limbs after it. -/
def chainRanges (p : Params) (carry : Range) : List Range → List Range × List Range
  | [] => ([], [])
  | [t] => ([t.add carry], [t.add carry])
  | t :: u :: ts =>
    let y := t.add carry
    let rest := chainRanges p (y.asr p.db) (u :: ts)
    (y :: rest.1, y.mask p.db :: rest.2)

/-- Column sums of two half-limb vectors (R212). -/
def columnRanges : List Range → List Range → List Range
  | [], _ => []
  | a :: as, bs => go (bs.map (Range.mul a)) (Range.point 0 :: columnRanges as bs)
where
  /-- Sum of two vectors of intervals. -/
  go : List Range → List Range → List Range
  | a :: as, b :: bs => a.add b :: go as bs
  | [], bs => bs
  | as, [] => as

/-- Pairing of columns (R213). -/
def pairRanges (p : Params) (prev : Range) : List Range → List Range
  | [] => []
  | [c0] => [c0.add (prev.asr p.mdb)]
  | c0 :: c1 :: cs => ((c0.add ((c1.mask p.mdb).shl p.mdb)).add (prev.asr p.mdb)) :: pairRanges p c1 cs

/-- `scalar_pack` (R216): the partial products, and the packed limbs. -/
def packRanges (p : Params) (b : Range) (topFull : Bool) (prev : Range) : List Range → List Range × List Range
  | [] => ([], [])
  | [x] =>
    let pl := (x.mask p.mdb).mul b
    let ph := (x.asr p.mdb).mul b
    if topFull then ([pl, ph], [(pl.add (prev.asr p.mdb)).add (ph.shl p.mdb)])
    else ([pl, ph], [(pl.add (prev.asr p.mdb)).add ((ph.mask p.mdb).shl p.mdb), ph.asr p.mdb])
  | x :: y :: xs =>
    let pl := (x.mask p.mdb).mul b
    let ph := (x.asr p.mdb).mul b
    let rest := packRanges p b topFull ph (y :: xs)
    (pl :: ph :: rest.1, ((pl.add (prev.asr p.mdb)).add ((ph.mask p.mdb).shl p.mdb)) :: rest.2)

/-- The rows of R221's table, in its order: worst-case signed container widths. -/
structure WidthTable where
  halfProduct : Nat
  column : Nat
  paired : Nat
  hm : Nat
  hmProducts : Nat
  mulLimb0 : Nat
  mulsProducts : Nat
  mulsPacked : Nat
  mulsFold : Nat
  addLimb0 : Nat
  subLimb0 : Nat
  addsLimb0 : Nat
  subsLimb0 : Nat
  deriving DecidableEq, Repr

/-- The analysis of R221: every WF operand, every scalar in its range (R10). The high half of a product and the MULS fold
are bounded from the product's value, |val(a)·val(b)| ≤ 2^(2n+4) (R218, R220). -/
def widthTable (p : Params) : WidthTable :=
  let wfs := wfRanges p
  let halves := halfRanges p wfs
  let cRange := Range.point p.c
  let cols := columnRanges halves halves
  let pairs := pairRanges p (Range.point 0) cols
  let high : Range := Range.asr ⟨-(2 ^ (2 * p.n + 4)), 2 ^ (2 * p.n + 4)⟩ (p.n + p.db * (p.numLimbs - 1))
  let hmPack := packRanges p cRange true (Range.point 0) (List.replicate (p.numLimbs - 1) (lowRange p) ++ [high])
  let hmChain := chainRanges p (Range.point 0) hmPack.2
  let hmRes := (hmChain.2.getLastD (Range.point 0)).asr p.hdb
  let scalar : Range := ⟨p.mulMin, p.mulMax⟩
  let mulsPack := packRanges p scalar false (Range.point 0) wfs
  let mulsVal := Range.mul ⟨-(2 ^ (p.n + 2)), 2 ^ (p.n + 2) - 1⟩ scalar
  let resRange := (topRange p).asr p.hdb
  let addScalar : Range := ⟨p.addMin, p.addMax⟩
  { halfProduct := widthOf (halves.flatMap fun a => halves.map (Range.mul a))
    column := widthOf cols
    paired := widthOf (pairs ++ (chainRanges p (Range.point 0) pairs).1)
    hm := widthOf (hmPack.2 ++ hmChain.1)
    hmProducts := widthOf hmPack.1
    mulLimb0 := (((lowRange p).add (lowRange p)).add (hmRes.mul cRange)).width
    mulsProducts := widthOf mulsPack.1
    mulsPacked := widthOf (mulsPack.2 ++ (chainRanges p (Range.point 0) mulsPack.2).1)
    mulsFold := ((mulsVal.asr p.n).mul cRange).width
    addLimb0 := (((lowRange p).add (lowRange p)).add ((resRange.add resRange).mul cRange)).width
    subLimb0 := (((lowRange p).add (lowRange p).neg).add ((resRange.add resRange.neg).mul cRange)).width
    addsLimb0 := (((lowRange p).add addScalar).add (resRange.mul cRange)).width
    subsLimb0 := (((lowRange p).add addScalar.neg).add (resRange.mul cRange)).width }

/-- The sums of a carry chain over limbs whose top one is masked, `limb0` the sum in limb 0, `others` the sums in the limbs
between, `top` the sum in the top limb (R149). -/
def chainSums (p : Params) (limb0 others top : Range) : List Range :=
  (chainRanges p (Range.point 0) (limb0 :: List.replicate (p.numLimbs - 2) others ++ [top])).1

/-- A top limb masked to its HDB value bits (R142). -/
def maskedTop (p : Params) : Range := ⟨0, 2 ^ p.hdb - 1⟩

/-- c as an addend. -/
def cPoint (p : Params) : Range := Range.point p.c

/-- res of a WF vector, in [−4, 3] (R141, R144). -/
def resRange (p : Params) : Range := (topRange p).asr p.hdb

/-- The sums of REDUCE and NORM (R150, R154): fold_top and its chain, the candidate x + c, and x + k·c for k = 0 or 1. -/
def foldIntermediates (p : Params) : List Range :=
  let low := lowRange p
  (resRange p).mul (cPoint p) ::
    (chainSums p (low.add ((resRange p).mul (cPoint p))) low (maskedTop p) ++
      chainSums p (low.add (cPoint p)) low (maskedTop p))

/-- The sums of ADD and SUB (R181), by the second operand's sign. -/
def addSubIntermediates (p : Params) (sign : Range → Range) : List Range :=
  let low := lowRange p
  let k := (resRange p).add (sign (resRange p))
  k.mul (cPoint p) ::
    chainSums p ((low.add (sign low)).add (k.mul (cPoint p))) (low.add (sign low))
      ((maskedTop p).add (sign (maskedTop p)))

/-- The sums of ADDS and SUBS from limb 1 on (R185), by the scalar's sign. Limb 0, of 65 bits, is in the table. -/
def scalarIntermediates (p : Params) (sign : Range → Range) : List Range :=
  let low := lowRange p
  let limb0 := (low.add (sign ⟨p.addMin, p.addMax⟩)).add ((resRange p).mul (cPoint p))
  (chainSums p limb0 low (maskedTop p)).tail

/-- The sums of MUL that the table has no row for: the assembly of the high half (R215), k·c, and the final add's chain
(R217). -/
def mulIntermediates (p : Params) : List Range :=
  let low := lowRange p
  let shiftUp : Range → Range := fun r => r.shl (p.db - p.hdb)
  let top : Range := Range.asr ⟨-(2 ^ (2 * p.n + 4)), 2 ^ (2 * p.n + 4)⟩ (p.db * (2 * p.numLimbs - 1))
  let high : Range := Range.asr ⟨-(2 ^ (2 * p.n + 4)), 2 ^ (2 * p.n + 4)⟩ (p.n + p.db * (p.numLimbs - 1))
  let hm := chainRanges p (Range.point 0)
    (packRanges p (cPoint p) true (Range.point 0) (List.replicate (p.numLimbs - 1) low ++ [high])).2
  let kc := ((hm.2.getLastD (Range.point 0)).asr p.hdb).mul (cPoint p)
  [(low.asr p.hdb).add (shiftUp (maskedTop p)), shiftUp top, (low.asr p.hdb).add (shiftUp top), kc] ++
    chainSums p ((low.add low).add kc) (low.add low) ((maskedTop p).add (maskedTop p))

/-- The sums of MULS that the table has no row for (R222): the term m[D]·2^(DB − HDB) of k, k, and t[0] + k·c with its
chain. -/
def mulsIntermediates (p : Params) : List Range :=
  let product := Range.mul ⟨-(2 ^ (p.n + 2)), 2 ^ (p.n + 2) - 1⟩ ⟨p.mulMin, p.mulMax⟩
  let low := lowRange p
  let k := product.asr p.n
  (product.asr (p.db * p.numLimbs)).shl (p.db - p.hdb) :: k ::
    chainSums p (low.add (k.mul (cPoint p))) low (maskedTop p)

/-- The intermediates of R149 to R154, R181, R185, R215, R217 and R222 that R221's table has no row for, each of 64 bits. A
partial sum needs no entry of its own: the interval of every addend holds 0 (all but that of c in NORM's candidate, its last
addend), so the interval of the whole sum holds those of its parts. -/
def otherIntermediates (p : Params) : List Range :=
  foldIntermediates p ++ addSubIntermediates p id ++ addSubIntermediates p Range.neg ++ scalarIntermediates p id ++
    scalarIntermediates p Range.neg ++ mulIntermediates p ++ mulsIntermediates p

/-- R8(h): every intermediate fits 64 bits, the limb-0 sums of ADDS and SUBS 65 bits (R151). -/
def widthsFit (p : Params) : Bool :=
  let t := widthTable p
  [t.halfProduct, t.column, t.paired, t.hm, t.hmProducts, t.mulLimb0, t.mulsProducts, t.mulsPacked, t.mulsFold,
    t.addLimb0, t.subLimb0].all (· ≤ 64) && [t.addsLimb0, t.subsLimb0].all (· ≤ 65) &&
    (otherIntermediates p).all (fun r => r.width ≤ 64)

end Sys2Proof.Machine
end

