-- ==== Sys2Proof/WellFormed.lean ====
section
/-! DEFINITION. The checks on what the model is given: a legal parameter set (00_scope.md R8), a command that exists on the
instance (30_encoding.md R106, R107(d)), and a command word no check of R107 refuses. A register field has no check: every
index is legal (R101). -/

namespace Sys2Proof

namespace Params

/-- R8(a): DB = 2·MDB. -/
def checkHalves (p : Params) : Bool := p.db == 2 * p.mdb && 0 < p.db

/-- R8(b): 1 ≤ HDB ≤ DB. -/
def checkTop (p : Params) : Bool := 1 ≤ p.hdb && p.hdb ≤ p.db

/-- R8(d): p mod 4 = 3, or p mod 8 = 5. -/
def checkClass (p : Params) : Bool := p.prime % 4 == 3 || p.prime % 8 == 5

/-- R8(e): 8·PB − n ≤ 2. -/
def checkPacked (p : Params) : Bool := 8 * p.packedBytes - p.n ≤ 2

/-- R8(f): (D−1)·DB ≥ 64. -/
def checkScalarRoom (p : Params) : Bool := 64 ≤ (p.numLimbs - 1) * p.db

/-- R8(g): 16·c² < 2^((D−1)·DB). -/
def checkConstant (p : Params) : Bool := 16 * p.c ^ 2 < 2 ^ ((p.numLimbs - 1) * p.db)

/-- The register map holds D ≤ 32 (R71). -/
def checkMap (p : Params) : Bool := p.numLimbs ≤ 32

/-- The conditions of R8 that a computation decides: all but (c), with R71's D ≤ 32. -/
def check (p : Params) : Bool :=
  p.checkHalves && p.checkTop && p.checkClass && p.checkPacked && p.checkScalarRoom && p.checkConstant &&
    p.checkMap && Machine.widthsFit p

/-- A legal parameter set: R8 (a) to (h). -/
abbrev Legal (p : Params) : Prop := p.check = true ∧ p.prime.Prime

end Params

/-- A command is well formed on an instance where it exists there (R106). -/
def Instr.wellFormed (p : Params) (i : Instr) : Bool := i.existsOn p

/-- A command word that passes R107 (a) to (c). -/
def wordWellFormed (w : CmdWord) : Bool := (decode w).isSome

end Sys2Proof
end

