-- ==== Sys2Proof/Machine/Instance.lean ====
section
/-! DEFINITION. Building an instance of PFCORE: the check of its parameter set, and the state it starts in (00_scope.md R8,
10_state.md R49). -/

namespace Sys2Proof.Machine

/-- The instance of set-up `u`, right after reset, or none where its parameter set is not legal: R8 has a model check (a) to
(h) before it builds an instance. -/
def buildInstance (u : Setup) (inputs : List HostOp) : Option State :=
  if u.params.Legal then some (State.resetOf u inputs 0) else none

end Sys2Proof.Machine
end

