-- ==== Sys2Proof/Safety.lean ====
section
/-! DEFINITION. What counts as a safe run (60_exceptions.md R326), and the words that claims use: what a command may change,
what completion does (R327), what the state after reset is (10_state.md R49), and the invariants of the machine. -/

namespace Sys2Proof.Safety

open Sys2Proof.Machine

/-- A step that stops at a command with a model-level fault: the reading in which a model stops the run at the faulting
command and reports the fault (R148, R326). `step` goes on as the hardware does, with free values (log 1). -/
def strictStep (s : State) : Host.Outcome State Fault Refusal :=
  match step s with
  | .next t =>
    match s.report, t.report with
    | none, some u => .fault (.ub u)
    | _, _ => .next t
  | o => o

/-- The machine with that step. -/
def strictCore : Host.Core := { Sys2Proof.core with step := strictStep }

/-- A run of `k` cycles that meets no fault and no refusal, model-level faults among them. -/
def SafeRun (k : Nat) (s : State) : Prop := ∃ t, strictCore.run k s = .next t

/-- The commands of a list run one after another, each to its completion. -/
def execAll : List Instr → State → Host.Outcome State Fault Refusal
  | [], s => .next s
  | i :: is, s =>
    match exec i s with
    | .next t => execAll is t
    | o => o

/-- The element register a command writes (R31). -/
def destination : Instr → Option Reg
  | .add rd _ _ | .sub rd _ _ | .mul rd _ _ | .div rd _ _ => some rd
  | .neg rd _ | .adds rd _ | .subs rd _ | .sqr rd _ | .muls rd _ | .reduce rd _ | .norm rd _ | .inv rd _ | .sqrt rd _
  | .isqrt rd _ | .mov rd _ => some rd
  | .unpack rd | .seti rd | .scrub rd => some rd
  | .nop | .leg _ | .legq _ | .pack _ | .cmpeq _ _ | .iszero _ => none

/-- Whether a command writes RESULT (R40). -/
def writesResult : Instr → Bool
  | .leg _ | .legq _ | .cmpeq _ _ | .iszero _ => true
  | _ => false

/-- Whether a command writes the packed image, PBUF and PBUF_LEN (R41, R280). -/
def writesImage : Instr → Bool
  | .pack _ => true
  | _ => false

/-- The source registers that a command checks for WF (R148): none for NOP, MOV, SETI, SCRUB and UNPACK. -/
def checkedSources : Instr → List Reg
  | .add _ a b | .sub _ a b | .mul _ a b | .div _ a b | .cmpeq a b => [a, b]
  | .neg _ a | .adds _ a | .subs _ a | .sqr _ a | .muls _ a | .reduce _ a | .norm _ a | .inv _ a | .sqrt _ a
  | .isqrt _ a | .leg a | .legq a | .pack a | .iszero a => [a]
  | .nop | .mov _ _ | .seti _ | .scrub _ | .unpack _ => []

/-- Whether SCALAR is in the range of the command (R10): any value for a command that does not read it. -/
def scalarInRange (p : Params) (v : Word) : Instr → Bool
  | .adds _ _ | .subs _ _ | .seti _ => decide (p.addMin ≤ v.toInt ∧ v.toInt ≤ p.addMax)
  | .muls _ _ => decide (p.mulMin ≤ v.toInt ∧ v.toInt ≤ p.mulMax)
  | _ => true

/-- The completion effects of R327 from `s` to `t`. -/
structure Completed (outcome : Completion) (s t : State) : Prop where
  done : t.done = true
  err : t.err = match outcome with | .ok => s.err | .error _ => true
  errCode : t.errCode = match outcome with | .ok => s.errCode | .error code => code
  cmdCount : t.cmdCount = s.cmdCount + 1
  idle : t.isBusy = false
  d0 : t.d0 = s.params.scrubbed
  d1 : t.d1 = s.params.scrubbed
  d2 : t.d2 = s.params.scrubbed

/-- What is left unchanged from `s` to `t`: every element register but `dest`, RESULT unless `result`, PBUF and PBUF_LEN
unless `image`, and always OVERRUN, IE, CMD, SCALAR, the instance, the host's list and its last read. -/
structure ChangesOnly (dest : Option Reg) (result image : Bool) (s t : State) : Prop where
  elems : ∀ q, dest ≠ some q → t.elem q = s.elem q
  resultKept : result = false → t.result = s.result
  pbufKept : image = false → t.pbuf = s.pbuf
  pbufLenKept : image = false → t.pbufLen = s.pbufLen
  overrun : t.overrun = s.overrun
  ie : t.ie = s.ie
  cmd : t.cmd = s.cmd
  scalar : t.scalar = s.scalar
  setup : t.setup = s.setup
  inputs : t.inputs = s.inputs
  readData : t.readData = s.readData

/-- A command that completes normally, changes only `rd`, and reports no model-level fault. -/
structure WritesElem (rd : Reg) (s t : State) : Prop where
  completed : Completed .ok s t
  frame : ChangesOnly (some rd) false false s t
  report : t.report = s.report

/-- A query that completes normally, changes only RESULT, and reports no model-level fault. -/
structure WritesResult (s t : State) : Prop where
  completed : Completed .ok s t
  frame : ChangesOnly none true false s t
  report : t.report = s.report

/-- A loose result (R147, R156, R157): WF, congruent mod p to `m`, and chain(V) limb for limb under LOOSE_EXACT. -/
structure LooseResult (rd : Reg) (V m : Int) (s t : State) : Prop where
  writes : WritesElem rd s t
  wf : wf s.params (t.elem rd) = true
  congruent : val s.params (t.elem rd) ≡ m [ZMOD (s.params.prime : Int)]
  exact : s.setup.looseExact = true → t.elem rd = chain s.params V

/-- A Normalized result (R146, R156) of residue `v`. -/
structure NormalResult (rd : Reg) (v : Nat) (s t : State) : Prop where
  writes : WritesElem rd s t
  elem : t.elem rd = chain s.params (v : Int)
  wf : wf s.params (t.elem rd) = true
  small : v < s.params.prime
  value : val s.params (t.elem rd) = v

/-- The values of R49, as the host and the hidden state show them. -/
structure IsResetState (t : State) : Prop where
  elems : ∀ q, t.elem q = List.replicate t.params.numLimbs 0xFFFFFFFFFFFFFFFF#64
  d0 : t.d0 = List.replicate t.params.numLimbs 0xFFFFFFFFFFFFFFFF#64
  d1 : t.d1 = List.replicate t.params.numLimbs 0xFFFFFFFFFFFFFFFF#64
  d2 : t.d2 = List.replicate t.params.numLimbs 0xFFFFFFFFFFFFFFFF#64
  status : t.statusWord = 0#64
  ctrl : t.ctrlWord = 0#64
  cmd : t.cmd = 0#32
  scalar : t.scalar = 0#64
  result : t.result = 0#64
  cmdCount : t.cmdCount = 0#64
  pbuf : t.pbuf = List.replicate t.params.pbufWords 0#64
  pbufLen : t.pbufLen = 0#16
  idle : t.phase = .idle
  irq : t.irq = false

/-- What the model defines of a register: it is WF, or scrubbed (R147). -/
def regDefined (p : Params) (L : Element) : Bool := wf p L || L == p.scrubbed

/-- The structural invariant: a decided instance, D limbs in every register, a scrubbed scratchpad between cycles (R288), PBW
words of PBUF, an ERRCODE exactly while ERR is set (R36, R327), and a running command that CMD reads with 1 to LAT cycles
left (R38, R46, R368). -/
structure Inv (s : State) : Prop where
  decided : s.params ∈ Params.decided
  limbs : ∀ r, (s.elem r).length = s.params.numLimbs
  scratch : s.d0 = s.params.scrubbed ∧ s.d1 = s.params.scrubbed ∧ s.d2 = s.params.scrubbed
  image : s.pbuf.length = s.params.pbufWords
  errors : s.err = false ↔ s.errCode = .none
  running : ∀ w left, s.phase = .busy w left → s.cmd = w ∧ 1 ≤ left ∧ left ≤ s.latency w

/-- Until a model-level fault is reported, every register is WF or scrubbed (R147). -/
def Defined (s : State) : Prop := s.report = none → ∀ r, regDefined s.params (s.elem r) = true

end Sys2Proof.Safety
end

