-- ==== Sys2Proof/Certificates/Slice0/Obligations.lean ====
section
/-! DEFINITION. The statements for the provers. Each docstring names the rules of spec/ it follows.
Every BASE is meant: where one is no multiple of 8, that an access at an aligned offset is taken is the model's choice
(log 26). -/

open Sys2Proof Sys2Proof.Machine Sys2Proof.Safety

/-! ## Encoding -/

/-- R101, R102, R105, R106: decoding the word of any command gives the command back, with every operand. -/
def Obligations.DecodeOfEncodeIsIdentity : Prop := ∀ i : Instr, decode (encode i) = some i

/-- R105, R107: a word that decodes is the word of the command it decodes to, so each command has one word. -/
def Obligations.DecodedWordIsTheEncoding : Prop := ∀ (w : CmdWord) (i : Instr), decode w = some i → encode i = w

/-- R107 (a) to (d): exactly these words fail decode on an instance: an unassigned opcode, a set bit in [31:20], a non-zero
field that the command does not use, and LEGQ where p ≡ 3 (mod 4). -/
def Obligations.IllegalWordsAreThoseOfTheRule : Prop :=
  ∀ (p : Params) (w : CmdWord),
    decodeOn p w = none ↔
      (w.extractLsb' 0 8 ∈ [0x06#8, 0x07#8, 0x0B#8, 0x0E#8, 0x0F#8, 0x16#8, 0x17#8, 0x1A#8, 0x1B#8, 0x1F#8] ∨
          0x22 ≤ (w.extractLsb' 0 8).toNat) ∨
        w.extractLsb' 20 12 ≠ 0#12 ∨
        (w.extractLsb' 8 4 ≠ 0#4 ∧ w.extractLsb' 0 8 ∈ [0x00#8, 0x14#8, 0x15#8, 0x19#8, 0x20#8, 0x21#8]) ∨
        (w.extractLsb' 12 4 ≠ 0#4 ∧ w.extractLsb' 0 8 ∈ [0x00#8, 0x18#8, 0x1D#8, 0x1E#8]) ∨
        (w.extractLsb' 16 4 ≠ 0#4 ∧ w.extractLsb' 0 8 ∉ [0x01#8, 0x02#8, 0x08#8, 0x11#8, 0x20#8]) ∨
        (w.extractLsb' 0 8 = 0x15#8 ∧ p.prime % 4 = 3)

/-- 95_test_vectors.md section 2: words written out from R102 and R105 decode to their commands, at least one for each of the
six formats and for each of the nine units of R2. -/
def Obligations.SpecWordsDecode : Prop :=
  decode 0x00000000#32 = some .nop ∧ decode 0x00032101#32 = some (.add 1 2 3) ∧
    decode 0x00065402#32 = some (.sub 4 5 6) ∧ decode 0x0000A904#32 = some (.adds 9 10) ∧
    decode 0x000FED08#32 = some (.mul 13 14 15) ∧ decode 0x00001109#32 = some (.sqr 1 1) ∧
    decode 0x0000440C#32 = some (.reduce 4 4) ∧ decode 0x0000650D#32 = some (.norm 5 6) ∧
    decode 0x000BA911#32 = some (.div 9 10 11) ∧ decode 0x0000DC12#32 = some (.sqrt 12 13) ∧
    decode 0x0000FE13#32 = some (.isqrt 14 15) ∧ decode 0x00002015#32 = some (.legq 2) ∧
    decode 0x00000318#32 = some (.unpack 3) ∧ decode 0x00098020#32 = some (.cmpeq 8 9)

/-! ## The clock cycle and the sequencer -/

/-- R38, R46, R81, R368: where the host writes a word to CMD, the block is idle and the word's LAT is one cycle, the step is
the run of the decoded command, on the state that has taken the host's write. That a step is one clock cycle, and that LAT = 1
accepts and completes in the same one, is the model's reading (logs 7, 20). -/
def Obligations.StepRunsTheDecodedCommand : Prop :=
  ∀ (s : State) (v : Word) (i : Instr) (rest : List HostOp),
    s.phase = .idle → s.inputs = .access (.write (s.setup.platform.base + 0x20) 8 v) :: rest →
    decode (v.setWidth 32) = some i → s.latency (v.setWidth 32) = 1 →
      step s = exec i { s with inputs := rest, readData := none, cmd := v.setWidth 32,
                               phase := .busy (v.setWidth 32) 1 }

/-- R106, R322, R327: a word that fails decode on the instance completes with ILLEGAL: CMD reads the word, and no element
register, RESULT, PBUF, PBUF_LEN or SCALAR changes. Stated for LAT(ILLEGAL) = 1; `CommandCompletesAfterItsLatency` has
every latency. -/
def Obligations.IllegalWordCompletesWithTheError : Prop :=
  ∀ (s : State) (v : Word) (rest : List HostOp),
    s.phase = .idle → s.inputs = .access (.write (s.setup.platform.base + 0x20) 8 v) :: rest →
    decodeOn s.params (v.setWidth 32) = none → s.latency (v.setWidth 32) = 1 →
      ∃ t, step s = .next t ∧ Completed (.error .illegal) s t ∧ t.cmd = v.setWidth 32 ∧
        (∀ q, t.elem q = s.elem q) ∧ t.result = s.result ∧ t.pbuf = s.pbuf ∧ t.pbufLen = s.pbufLen ∧
        t.scalar = s.scalar ∧ t.overrun = s.overrun ∧ t.ie = s.ie ∧ t.setup = s.setup ∧ t.report = s.report

/-- R38, R368, R370: for EVERY latency and every word, a word written to CMD and waited for keeps BUSY = 1 until its LAT-th
cycle, in which it completes: a command by its one run, a word that fails decode with ILLEGAL after LAT(ILLEGAL) cycles and
with no other effect. The wait ends in the next cycle. That every effect falls in the last cycle and the registers keep their
values before it is the model's choice (log 8), as are the cycle that LAT counts from (log 20) and the form of the wait
(log 23). -/
def Obligations.CommandCompletesAfterItsLatency : Prop :=
  ∀ (s : State) (v : Word) (rest : List HostOp),
    s.phase = .idle → s.inputs = .access (.write (s.setup.platform.base + 0x20) 8 v) :: .wait :: rest →
      let w := v.setWidth 32
      let accepted := { s with inputs := .wait :: rest, readData := none, cmd := w, phase := .busy w 1 }
      (∀ j, 1 ≤ j → j < s.latency w →
        ∃ u, core.run j s = .next u ∧ u.isBusy = true ∧ u.cmd = w ∧ u.cmdCount = s.cmdCount ∧ u.regs = s.regs) ∧
      ∃ t, core.run (s.latency w) s = .next t ∧ t.isBusy = false ∧ t.done = true ∧ t.cmdCount = s.cmdCount + 1 ∧
        (∀ i, decode w = some i → exec i accepted = .next t) ∧
        (decodeOn s.params w = none → s.latency w = s.setup.latency.illegalExtra + 1 ∧
          Completed (.error .illegal) s t ∧ ChangesOnly none false false accepted t ∧ t.report = s.report) ∧
        core.run (s.latency w + 1) s = .next { t with inputs := rest }

/-- R325, R36: in the cycle that completes a command, a W1C write to STATUS loses to the hardware's set: DONE is set, and so
are ERR and ERRCODE where the word is illegal, and where it is an UNPACK with too few bytes. -/
def Obligations.HardwareSetWinsOverHostClear : Prop :=
  ∀ (s : State) (w : CmdWord) (v : Word) (rest : List HostOp),
    s.phase = .busy w 1 → s.inputs = .access (.write (s.setup.platform.base + 0x18) 8 v) :: rest →
      ∃ t, step s = .next t ∧ t.done = true ∧ t.isBusy = false ∧
        (decodeOn s.params w = none → t.err = true ∧ t.errCode = .illegal) ∧
        (∀ rd, decode w = some (.unpack rd) → s.pbufLen.toNat < s.params.packedBytes →
          t.err = true ∧ t.errCode = .shape)

/-- R324, R325: a host write to CMD, SCALAR, PBUF_LEN or PBUF[w] in the cycle that completes a command is still dropped: the
cycle leaves what it leaves without the write, but for OVERRUN, and the command completes. -/
def Obligations.WriteInCompletingCycleIsDropped : Prop :=
  ∀ (s : State) (w : CmdWord) (off : Nat) (v : Word) (rest : List HostOp), s.params ∈ Params.decided →
    s.phase = .busy w 1 →
    (off ∈ [0x20, 0x28, 0x40] ∨ ∃ k, k < s.params.pbufWords ∧ off = 0x100 + 8 * k) →
    s.inputs = .access (.write (s.setup.platform.base + off) 8 v) :: rest →
      ∃ t, step { s with inputs := .idle :: rest } = .next t ∧ step s = .next { t with overrun := true } ∧
        t.isBusy = false ∧ t.done = true ∧ t.cmdCount = s.cmdCount + 1 ∧ t.cmd = s.cmd ∧ t.scalar = s.scalar

/-- R369: the BUSY interval does not depend on data. Two states that agree on the instance, the sequencer and what the host
does run in step for ever: BUSY, the completions and the stops fall in the same cycles, whatever the element registers,
SCALAR and PBUF hold. -/
def Obligations.TimingIsIndependentOfData : Prop :=
  ∀ (k : Nat) (s s' : State),
    s.setup = s'.setup → s.phase = s'.phase → s.inputs = s'.inputs → s.cmdCount = s'.cmdCount →
      match core.run k s, core.run k s' with
      | .next t, .next t' => t.phase = t'.phase ∧ t.inputs = t'.inputs ∧ t.cmdCount = t'.cmdCount
      | .fault r, .fault r' => r = r'
      | .refused r, .refused r' => r = r'
      | _, _ => False

/-! ## The host interface -/

/-- R324, R367, R371: a write to CMD, SCALAR, PBUF_LEN or PBUF[w] while BUSY = 1 is dropped and only sets OVERRUN; a write to
CTRL or STATUS is not dropped; a write to a read-only register is ignored without OVERRUN. In a BUSY cycle that does not
complete, a write to any offset leaves just what the write does and one cycle of BUSY less, and a write of SRST the reset
state. That a step is one cycle, with the cycles that are left counted in `phase`, is the model's form (log 7). -/
def Obligations.BusyWritesAreDroppedWithOverrun : Prop :=
  ∀ (s : State) (v : Word), s.params ∈ Params.decided → s.isBusy = true →
    s.hostWrite 0x20 v = { s with overrun := true } ∧ s.hostWrite 0x28 v = { s with overrun := true } ∧
    s.hostWrite 0x40 v = { s with overrun := true } ∧
    (∀ w, w < s.params.pbufWords → s.hostWrite (0x100 + 8 * w) v = { s with overrun := true }) ∧
    (v.getLsbD 1 = false → s.hostWrite 0x10 v = { s with ie := v.getLsbD 0 }) ∧
    (v.getLsbD 1 = true → IsResetState (s.hostWrite 0x10 v)) ∧
    s.hostWrite 0x18 v = s.writeStatus v ∧
    s.hostWrite 0x00 v = s ∧ s.hostWrite 0x08 v = s ∧ s.hostWrite 0x30 v = s ∧ s.hostWrite 0x38 v = s ∧
    (∀ r i, r < 16 → i < s.params.numLimbs → s.hostWrite (0x1000 + 8 * (r * s.params.numLimbs + i)) v = s) ∧
    ∀ off rest w left, off < 0x2000 → off % 8 = 0 → s.phase = .busy w left → 1 < left →
      s.inputs = .access (.write (s.setup.platform.base + off) 8 v) :: rest →
        (¬(off = 0x10 ∧ v.getLsbD 1 = true) →
          step s = .next { s.hostWrite off v with inputs := rest, readData := none, phase := .busy w (left - 1) }) ∧
        (off = 0x10 → v.getLsbD 1 = true →
          step s = .next { s.hostWrite 0x10 v with inputs := rest, readData := none })

/-- R37 to R41, R74, R371: while BUSY = 0, a write to SCALAR, PBUF_LEN (bits 15:0), PBUF[w] or CTRL.IE stores the value and
changes nothing else, and it reads back; a write to CTRL with SRST resets; a write to CMD accepts bits 31:0, with BUSY = 1 for
LAT cycles. In a cycle, a write to any offset but CMD leaves just what the write does. -/
def Obligations.IdleWritesTakeEffect : Prop :=
  ∀ (s : State) (v : Word), s.params ∈ Params.decided → s.phase = .idle →
    (s.hostWrite 0x28 v = { s with scalar := v } ∧ (s.hostWrite 0x28 v).hostRead 0x28 = v) ∧
    (s.hostWrite 0x40 v = { s with pbufLen := v.extractLsb' 0 16 } ∧
      (s.hostWrite 0x40 v).hostRead 0x40 = v &&& 0xFFFF#64) ∧
    (∀ k, k < s.params.pbufWords →
      s.hostWrite (0x100 + 8 * k) v = { s with pbuf := s.pbuf.set k v } ∧
      (s.pbuf.length = s.params.pbufWords → ∀ j, j < s.params.pbufWords →
        (s.hostWrite (0x100 + 8 * k) v).hostRead (0x100 + 8 * j) =
          if j = k then v else s.hostRead (0x100 + 8 * j))) ∧
    (v.getLsbD 1 = false →
      s.hostWrite 0x10 v = { s with ie := v.getLsbD 0 } ∧ (s.hostWrite 0x10 v).hostRead 0x10 = v &&& 1#64) ∧
    (v.getLsbD 1 = true → IsResetState (s.hostWrite 0x10 v)) ∧
    (s.hostWrite 0x20 v =
        { s with cmd := v.extractLsb' 0 32, phase := .busy (v.extractLsb' 0 32) (s.latency (v.extractLsb' 0 32)) } ∧
      (s.hostWrite 0x20 v).isBusy = true) ∧
    ∀ off rest, off < 0x2000 → off % 8 = 0 → off ≠ 0x20 →
      s.inputs = .access (.write (s.setup.platform.base + off) 8 v) :: rest →
        step s = .next { s.hostWrite off v with inputs := rest, readData := none }

/-- R73: reads of reserved offsets are 0 and writes to them are ignored; writes to ID, CFG, RESULT, CMDCOUNT and LIMB are
ignored, BUSY or not. -/
def Obligations.ReservedAndReadOnlyOffsets : Prop :=
  ∀ (s : State) (off : Nat) (v : Word), s.params ∈ Params.decided → off < 0x2000 → off % 8 = 0 →
    ((0x48 ≤ off ∧ off < 0x100) ∨ (0x100 + 8 * s.params.pbufWords ≤ off ∧ off < 0x1000) ∨
        0x1000 + 8 * (16 * s.params.numLimbs) ≤ off → s.hostRead off = 0#64 ∧ s.hostWrite off v = s) ∧
    (off ∈ [0x00, 0x08, 0x30, 0x38] ∨ (0x1000 ≤ off ∧ off < 0x1000 + 8 * (16 * s.params.numLimbs)) →
      s.hostWrite off v = s)

/-- R72: an access of another width than 8 bytes, or at an offset that is no multiple of 8, does nothing: a write is ignored
and a read returns 0. That the offset alone decides, where BASE is no multiple of 8, is the model's choice (log 26). -/
def Obligations.OtherWidthsAndAlignmentsDoNothing : Prop :=
  ∀ (s : State) (off bytes : Nat) (v : Word), off < 0x2000 → bytes ≠ 8 ∨ off % 8 ≠ 0 →
    s.access (.write (s.setup.platform.base + off) bytes v) = .next s ∧
      s.access (.read (s.setup.platform.base + off) bytes) = .next { s with readData := some 0#64 }

/-- R36, R37, R42, R43, R71, R338: what each offset of the map reads, field by field: ID, CFG, CTRL, STATUS, CMD, SCALAR and
CMDCOUNT whether BUSY or not, and RESULT, PBUF_LEN, PBUF[w] and LIMB[r][i] while BUSY = 0. -/
def Obligations.RegisterMapReads : Prop :=
  ∀ s : State, s.params ∈ Params.decided →
    let p := s.params
    let id := s.hostRead 0x00
    let cfg := s.hostRead 0x08
    let ctrl := s.hostRead 0x10
    let status := s.hostRead 0x18
    ((id.extractLsb' 0 16).toNat = p.n ∧ (id.extractLsb' 16 16).toNat = p.c ∧ (id.extractLsb' 32 8).toNat = p.numLimbs ∧
      (id.extractLsb' 40 8).toNat = p.db ∧ (id.extractLsb' 48 8).toNat = p.mdb ∧ (id.extractLsb' 56 8).toNat = p.hdb) ∧
    ((cfg.extractLsb' 0 16).toNat = p.packedBytes ∧ cfg.extractLsb' 16 8 = 16#8 ∧
      cfg.extractLsb' 24 2 = (if p.prime % 4 = 3 then 1#2 else 2#2) ∧ cfg.extractLsb' 26 6 = 0#6 ∧
      cfg.extractLsb' 32 8 = 1#8 ∧ cfg.extractLsb' 40 24 = 0#24) ∧
    (ctrl.getLsbD 0 = s.ie ∧ ctrl.extractLsb' 1 63 = 0#63) ∧
    (status.getLsbD 0 = s.isBusy ∧ status.getLsbD 1 = s.done ∧ status.getLsbD 2 = s.err ∧
      status.getLsbD 3 = s.overrun ∧
      status.extractLsb' 4 4 = (match s.errCode with | .none => 0#4 | .illegal => 1#4 | .shape => 2#4) ∧
      status.extractLsb' 8 56 = 0#56) ∧
    s.hostRead 0x20 = 0#32 ++ s.cmd ∧ s.hostRead 0x28 = s.scalar ∧ s.hostRead 0x38 = s.cmdCount ∧
    (s.isBusy = false →
      s.hostRead 0x30 = s.result ∧ s.hostRead 0x40 = 0#48 ++ s.pbufLen ∧
      (∀ w, w < p.pbufWords → s.hostRead (0x100 + 8 * w) = s.pbuf.getD w 0#64) ∧
      (∀ (r : Reg) (i : Nat), i < p.numLimbs →
        s.hostRead (0x1000 + 8 * (r.toNat * p.numLimbs + i)) = (s.elem r).getD i 0#64))

/-- R83, R371: while BUSY = 1, a read of RESULT, PBUF_LEN, PBUF[w] or LIMB is a fresh free draw, and a read of ID, CFG, CTRL,
STATUS, CMD, SCALAR or CMDCOUNT is the current value. That the draw is `Config.freeRead` of the counter `draws`, which each
such read raises by one, is the model's form of the free draw (logs 9, 10). -/
def Obligations.BusyReadsAreFreeDraws : Prop :=
  ∀ s : State, s.params ∈ Params.decided → s.isBusy = true →
    (∀ off, off ∈ [0x30, 0x40] ∨ (∃ w, w < s.params.pbufWords ∧ off = 0x100 + 8 * w) ∨
        (∃ k, k < 16 * s.params.numLimbs ∧ off = 0x1000 + 8 * k) →
      s.hostRead off = Config.freeRead s.draws ∧ (s.afterRead off).draws = s.draws + 1) ∧
    s.hostRead 0x00 = s.params.idWord ∧ s.hostRead 0x08 = s.params.cfgWord ∧ s.hostRead 0x10 = s.ctrlWord ∧
    s.hostRead 0x18 = s.statusWord ∧ s.hostRead 0x20 = s.cmd.setWidth 64 ∧ s.hostRead 0x28 = s.scalar ∧
    s.hostRead 0x38 = s.cmdCount

/-- R72, R74, R83, R371: a read has no side effect. The cycle of a read, BUSY or not, leaves what a cycle without an access
leaves, but for the answer, which is HostRead of the offset for an aligned 64-bit read and 0 for any other; the same read, made
again, answers the same while the block is idle. Exactly a read that R83 makes free, of RESULT, PBUF_LEN, PBUF or LIMB while
BUSY = 1, uses a draw of the model's free values (logs 9, 10). -/
def Obligations.ReadsHaveNoSideEffect : Prop :=
  ∀ (s : State) (off bytes : Nat) (rest : List HostOp), off < 0x2000 →
    s.inputs = .access (.read (s.setup.platform.base + off) bytes) :: rest →
      let taken := bytes = 8 ∧ off % 8 = 0
      let free := taken ∧ s.isBusy = true ∧
        (off = 0x30 ∨ off = 0x40 ∨ (0x100 ≤ off ∧ off < 0x100 + 8 * s.params.pbufWords) ∨
          (0x1000 ≤ off ∧ off < 0x1000 + 8 * (16 * s.params.numLimbs)))
      ∃ v d t, step { s with inputs := .idle :: rest, draws := d } = .next t ∧
        step s = .next { t with readData := some v } ∧
        (taken → v = s.hostRead off) ∧ (¬taken → v = 0#64) ∧
        (free → d = s.draws + 1) ∧ (¬free → d = s.draws) ∧
        (s.isBusy = false → t = { s with inputs := rest, readData := none } ∧
          State.access { s with inputs := rest, readData := some v } (.read (s.setup.platform.base + off) bytes) =
            .next { s with inputs := rest, readData := some v })

/-- R36: a write to STATUS clears DONE, ERR and OVERRUN where it has a 1, ERRCODE with ERR; BUSY and the reserved bits are
not written, a 0 has no effect, and nothing else changes. -/
def Obligations.StatusIsWriteOneToClear : Prop :=
  ∀ (s : State) (v : Word),
    ∃ t, s.hostWrite 0x18 v = t ∧
      t.statusWord.getLsbD 0 = s.statusWord.getLsbD 0 ∧
      t.statusWord.getLsbD 1 = (s.statusWord.getLsbD 1 && !v.getLsbD 1) ∧
      t.statusWord.getLsbD 2 = (s.statusWord.getLsbD 2 && !v.getLsbD 2) ∧
      t.statusWord.getLsbD 3 = (s.statusWord.getLsbD 3 && !v.getLsbD 3) ∧
      t.statusWord.extractLsb' 4 4 = (if v.getLsbD 2 then 0#4 else s.statusWord.extractLsb' 4 4) ∧
      t.statusWord.extractLsb' 8 56 = 0#56 ∧
      t = { s with done := t.done, err := t.err, errCode := t.errCode, overrun := t.overrun }

/-- R47: irq is the level CTRL.IE & (STATUS.DONE | STATUS.ERR | STATUS.OVERRUN), in the bits the host reads, and the platform
line IRQ_LINE carries it. -/
def Obligations.IrqIsTheStatusLevel : Prop :=
  ∀ s : State,
    s.irq = (s.ctrlWord.getLsbD 0 &&
      (s.statusWord.getLsbD 1 || s.statusWord.getLsbD 2 || s.statusWord.getLsbD 3)) ∧
    s.irqDrive = (s.setup.platform.irqLine, s.irq)

/-! ## Reset -/

/-- R49, R360 to R362: a soft reset and a hardware reset, whatever is running, both give the state of R49, in one cycle, and
SRST reads 0. -/
def Obligations.SoftResetIsHardwareReset : Prop :=
  ∀ (s : State) (v : Word) (rest : List HostOp), v.getLsbD 1 = true →
    ∃ t, step { s with inputs := .access (.write (s.setup.platform.base + 0x10) 8 v) :: rest } = .next t ∧
      step { s with inputs := .reset :: rest } = .next t ∧ IsResetState t ∧ t.setup = s.setup ∧ t.inputs = rest ∧
      t.ctrlWord.getLsbD 1 = false

/-- R49: `State.reset` holds the values of R49. -/
def Obligations.ResetStateIsAsStated : Prop := IsResetState State.reset

/-! ## Invariants and whole-machine rules -/

/-- R8, R9: the four decided parameter sets are legal: every condition of R8 holds, the widths of R8(h) and the primality of p
among them. -/
def Obligations.DecidedSetsAreLegal : Prop := ∀ p ∈ Params.decided, p.Legal

/-- R8, R9, R49: an instance is built exactly where its parameter set is legal, and it starts in the reset state of its own
set-up; the four decided sets are built, and `State.reset` is the instance built of the model's reference set-up (logs 3, 4,
5). -/
def Obligations.OnlyLegalInstancesAreBuilt : Prop :=
  buildInstance Setup.reference [] = some State.reset ∧ ∀ (u : Setup) (ins : List HostOp),
    (u.params.Legal → ∃ s, buildInstance u ins = some s ∧ IsResetState s ∧ s.setup = u ∧ s.inputs = ins) ∧
    (¬u.params.Legal → buildInstance u ins = none) ∧
    (u.params ∈ Params.decided → ∃ s, buildInstance u ins = some s)

/-- The two invariants hold of the reset state of every decided instance (R49, R147). -/
def Obligations.ResetMeetsTheInvariant : Prop :=
  ∀ (u : Setup) (ins : List HostOp) (d : Nat), u.params ∈ Params.decided →
    Inv (State.resetOf u ins d) ∧ Defined (State.resetOf u ins d)

/-- Every step keeps the structural invariant (R36, R38, R46, R288, R327, R368), whatever the host does. That the scratchpad is
scrubbed in BUSY cycles too, where R288 says it only of completion, abort, reset and idle, is the model's choice (log 8). -/
def Obligations.StepKeepsTheInvariant : Prop := ∀ s t : State, Inv s → step s = .next t → Inv t

/-- R147: until a model-level fault is reported, every register stays WF or scrubbed, whatever the host does and whatever the
free values are. That a run goes on after such a fault, with the report, is the model's choice (log 1). -/
def Obligations.StepKeepsRegistersDefined : Prop :=
  ∀ s t : State, Inv s → Defined s → step s = .next t → Defined t

/-- R42, R43, R45, R249, R363: nothing changes the instance, so ID, CFG and the constant store read the same for ever. On the
decided sets the store holds chain(p), and on p ≡ 5 (mod 8) ones alone the Normalized limbs of I = 2^((p−1)/4) mod p. -/
def Obligations.StepKeepsTheConstants : Prop :=
  (∀ s t : State, step s = .next t →
    t.params.idWord = s.params.idWord ∧ t.params.cfgWord = s.params.cfgWord ∧ t.params.c = s.params.c ∧
      constP t.params = constP s.params ∧ constI t.params = constI s.params ∧ t.setup = s.setup) ∧
  ∀ p ∈ Params.decided,
    (constP p = chain p p.prime ∧ val p (constP p) = p.prime) ∧
    (p.prime % 4 = 3 → constI p = none) ∧
    (p.prime % 8 = 5 → ∃ L, constI p = some L ∧ wf p L = true ∧ normalized p L = true ∧
      val p L = (2 ^ ((p.prime - 1) / 4) % p.prime : Nat))

/-- R31, R35, R40, R362: in a cycle the element registers, RESULT and CMDCOUNT all keep their values; or a command completes,
one in its last cycle of BUSY or one accepted in this cycle with LAT = 1, whose run leaves DONE = 1, BUSY = 0 and CMDCOUNT one
higher; or the block is reset. That no BUSY cycle but the completing one changes element registers or RESULT is the model's
choice, where R81 lets a command write at any time between acceptance and completion (log 8); that a command with LAT = 1 is
accepted and completed in one cycle is its reading of R368 (log 20). -/
def Obligations.OnlyCommandsAndResetWriteElements : Prop :=
  ∀ s t : State, step s = .next t →
    (t.regs = s.regs ∧ t.result = s.result ∧ t.cmdCount = s.cmdCount) ∨
    (∃ w u,
      ((∃ left, s.phase = .busy w left ∧ left ≤ 1) ∨
        (s.phase = .idle ∧ s.latency w = 1 ∧ ∃ v rest, w = v.setWidth 32 ∧
          s.inputs = .access (.write (s.setup.platform.base + 0x20) 8 v) :: rest)) ∧
      u.regs = s.regs ∧ u.result = s.result ∧ u.setup = s.setup ∧ u.scalar = s.scalar ∧ u.pbuf = s.pbuf ∧
      u.pbufLen = s.pbufLen ∧ runWord w u = .next t ∧
      t.cmdCount = s.cmdCount + 1 ∧ t.isBusy = false ∧ t.done = true) ∨
    t = State.resetOf s.setup s.inputs.tail s.draws

/-- R320, R327: every command completes in every state, normally or with a hardware error: no command blocks, faults or is
refused. -/
def Obligations.EveryCommandCompletes : Prop :=
  ∀ (i : Instr) (s : State), ∃ t, exec i s = .next t ∧
    (Completed .ok s t ∨ Completed (.error .illegal) s t ∨ Completed (.error .shape) s t)

/-- R31, R39, R40, R41: a command changes no element register but its rd, no RESULT unless it is one of the four queries, no
PBUF or PBUF_LEN unless it is PACK, and never SCALAR, CTRL, CMD or OVERRUN. -/
def Obligations.CommandsChangeOnlyTheirOutputs : Prop :=
  ∀ (i : Instr) (s t : State), exec i s = .next t →
    ChangesOnly (destination i) (writesResult i) (writesImage i) s t

/-- R33, R366: a result depends on the operands' values alone, so it is the same whether or not rd is one of the sources:
two states of one instance, with the same operand values under any register numbers. -/
def Obligations.AliasingDoesNotChangeResults : Prop :=
  ∀ (s s' : State) (rd a b rd' a' b' : Reg),
    s.setup = s'.setup → s.draws = s'.draws → s.scalar = s'.scalar → s.elem a = s'.elem a' → s.elem b = s'.elem b' →
    (∀ f ∈ [Instr.add, Instr.sub, Instr.mul, Instr.div],
      ∃ t t', exec (f rd a b) s = .next t ∧ exec (f rd' a' b') s' = .next t' ∧ t.elem rd = t'.elem rd') ∧
    (∀ f ∈ [Instr.neg, Instr.adds, Instr.subs, Instr.sqr, Instr.muls, Instr.reduce, Instr.norm, Instr.inv,
        Instr.sqrt, Instr.isqrt, Instr.mov],
      ∃ t t', exec (f rd a) s = .next t ∧ exec (f rd' a') s' = .next t' ∧ t.elem rd = t'.elem rd')

/-! ## Results of the commands -/

/-- R152, R153, R155: REDUCE of a WF register is one fold, with a residual of −1, 0 or 1; NORM is the canonical
representative, and is idempotent. -/
def Obligations.ReduceAndNormResults : Prop :=
  ∀ (s : State) (rd rs1 : Reg), s.params ∈ Params.decided → s.operandOk rs1 = true →
    (∃ t, exec (.reduce rd rs1) s = .next t ∧
      LooseResult rd (low s.params (s.elem rs1) + s.params.c * res s.params (s.elem rs1)) (s.elemVal rs1) s t ∧
      (s.setup.looseExact = true → -1 ≤ res s.params (t.elem rd) ∧ res s.params (t.elem rd) ≤ 1)) ∧
    (∃ t, exec (.norm rd rs1) s = .next t ∧ NormalResult rd (s.elemResidue rs1) s t ∧
      normalized s.params (t.elem rd) = true ∧
      (normalized s.params (s.elem rs1) = true → t.elem rd = s.elem rs1))

/-- R181 to R184: ADD, SUB and NEG of WF registers. -/
def Obligations.AddSubNegResults : Prop :=
  ∀ (s : State) (rd rs1 rs2 : Reg), s.params ∈ Params.decided → s.operandOk rs1 = true → s.operandOk rs2 = true →
    let p := s.params
    let a := s.elem rs1
    let b := s.elem rs2
    (∃ t, exec (.add rd rs1 rs2) s = .next t ∧
      LooseResult rd (low p a + low p b + p.c * (res p a + res p b)) (val p a + val p b) s t) ∧
    (∃ t, exec (.sub rd rs1 rs2) s = .next t ∧
      LooseResult rd (low p a - low p b + p.c * (res p a - res p b)) (val p a - val p b) s t) ∧
    (∃ t, exec (.neg rd rs1) s = .next t ∧ LooseResult rd (-(low p a + p.c * res p a)) (-val p a) s t)

/-- R185 to R188: ADDS and SUBS of a WF register and a scalar in [addMin, addMax]. -/
def Obligations.AddsSubsResults : Prop :=
  ∀ (s : State) (rd rs1 : Reg), s.params ∈ Params.decided → s.operandOk rs1 = true →
    s.params.addMin ≤ s.scalarInt → s.scalarInt ≤ s.params.addMax →
    let p := s.params
    let a := s.elem rs1
    (∃ t, exec (.adds rd rs1) s = .next t ∧
      LooseResult rd (low p a + p.c * res p a + s.scalarInt) (val p a + s.scalarInt) s t) ∧
    (∃ t, exec (.subs rd rs1) s = .next t ∧
      LooseResult rd (low p a + p.c * res p a - s.scalarInt) (val p a - s.scalarInt) s t)

/-- R218, R219: MUL and SQR of WF registers. -/
def Obligations.MulSqrResults : Prop :=
  ∀ (s : State) (rd rs1 rs2 : Reg), s.params ∈ Params.decided → s.operandOk rs1 = true → s.operandOk rs2 = true →
    (∃ t, exec (.mul rd rs1 rs2) s = .next t ∧
      LooseResult rd (s.elemVal rs1 * s.elemVal rs2 % 2 ^ s.params.n +
          fold s.params (s.params.c * (s.elemVal rs1 * s.elemVal rs2 / 2 ^ s.params.n)))
        (s.elemVal rs1 * s.elemVal rs2) s t) ∧
    (∃ t, exec (.sqr rd rs1) s = .next t ∧
      LooseResult rd (s.elemVal rs1 ^ 2 % 2 ^ s.params.n +
          fold s.params (s.params.c * (s.elemVal rs1 ^ 2 / 2 ^ s.params.n))) (s.elemVal rs1 ^ 2) s t)

/-- R220, R223: MULS of a WF register and a scalar in [mulMin, mulMax]: one fold, and again a WF operand for the next
MULS. -/
def Obligations.MulsResult : Prop :=
  ∀ (s : State) (rd rs1 : Reg), s.params ∈ Params.decided → s.operandOk rs1 = true →
    s.params.mulMin ≤ s.scalarInt → s.scalarInt ≤ s.params.mulMax →
    ∃ t, exec (.muls rd rs1) s = .next t ∧
      LooseResult rd (fold s.params (s.elemVal rs1 * s.scalarInt)) (s.elemVal rs1 * s.scalarInt) s t ∧
      t.operandOk rd = true

/-- R244, R245, R254: INV writes the Normalized inverse, 0 for 0; DIV the Normalized quotient, 0 for a zero divisor. -/
def Obligations.InvDivResults : Prop :=
  ∀ (s : State) (rd rs1 rs2 : Reg), s.params ∈ Params.decided → s.operandOk rs1 = true → s.operandOk rs2 = true →
    (∃ t y, exec (.inv rd rs1) s = .next t ∧ NormalResult rd y s t ∧
      (s.elemResidue rs1 = 0 → y = 0) ∧
      (s.elemResidue rs1 ≠ 0 → (y : Int) * s.elemVal rs1 ≡ 1 [ZMOD (s.params.prime : Int)])) ∧
    (∃ t y, exec (.div rd rs1 rs2) s = .next t ∧ NormalResult rd y s t ∧
      (s.elemResidue rs2 = 0 → y = 0) ∧
      (s.elemResidue rs2 ≠ 0 → (y : Int) * s.elemVal rs2 ≡ s.elemVal rs1 [ZMOD (s.params.prime : Int)]))

/-- R246 to R250, R253, R254: SQRT and ISQRT complete with a Normalized result for every WF operand, residue or not: the value
of the formula, x^((p+1)/4) where p ≡ 3 (mod 4), and where p ≡ 5 (mod 8) x^((p+3)/8), times I = 2^((p−1)/4) where x^((p−1)/4)
is −1; ISQRT is its inverse. For a square, SQRT is a square root, and for a non-zero square, ISQRT its inverse root. -/
def Obligations.SqrtIsqrtResults : Prop :=
  ∀ (s : State) (rd rs1 : Reg), s.params ∈ Params.decided → s.operandOk rs1 = true →
    let p := s.params.prime
    let x := s.elemResidue rs1
    let root58 := x ^ ((p + 3) / 8) * (if x ^ ((p - 1) / 4) % p = p - 1 then 2 ^ ((p - 1) / 4) else 1) % p
    (∃ t y, exec (.sqrt rd rs1) s = .next t ∧ NormalResult rd y s t ∧
      (p % 4 = 3 → y = x ^ ((p + 1) / 4) % p) ∧ (p % 8 = 5 → y = root58) ∧
      (IsSquare (s.elemVal rs1 : ZMod p) → (y : Int) ^ 2 ≡ s.elemVal rs1 [ZMOD (p : Int)])) ∧
    (∃ t y, exec (.isqrt rd rs1) s = .next t ∧ NormalResult rd y s t ∧
      (p % 4 = 3 → y = x ^ ((3 * p - 5) / 4) % p) ∧ (p % 8 = 5 → y = root58 ^ (p - 2) % p) ∧
      (x = 0 → y = 0) ∧
      (IsSquare (s.elemVal rs1 : ZMod p) → x ≠ 0 → s.elemVal rs1 * (y : Int) ^ 2 ≡ 1 [ZMOD (p : Int)]))

/-- R251: LEG writes the Legendre symbol of the operand, as a signed integer, to RESULT. -/
def Obligations.LegendreResult : Prop :=
  ∀ (s : State) (rs1 : Reg), s.params ∈ Params.decided → s.operandOk rs1 = true →
    ∃ t, exec (.leg rs1) s = .next t ∧ WritesResult s t ∧
      t.result.toInt = jacobiSym (s.elemVal rs1) s.params.prime

/-- R252: on a p ≡ 5 (mod 8) instance LEGQ writes 1 for a non-zero fourth power, 0 for 0, −1 for another square, and 2 for a
non-square; on a p ≡ 3 (mod 4) instance it completes with ILLEGAL and writes nothing. -/
def Obligations.QuarticLegendreResult : Prop :=
  ∀ (s : State) (rs1 : Reg), s.params ∈ Params.decided →
    (s.params.prime % 8 = 5 → s.operandOk rs1 = true →
      let x := (s.elemVal rs1 : ZMod s.params.prime)
      ∃ t, exec (.legq rs1) s = .next t ∧ WritesResult s t ∧
        (x = 0 → t.result = 0#64) ∧
        (x ≠ 0 → (∃ y, y ^ 4 = x) → t.result = 1#64) ∧
        (IsSquare x → ¬(∃ y, y ^ 4 = x) → t.result = 0xFFFFFFFFFFFFFFFF#64) ∧
        (¬IsSquare x → t.result = 2#64)) ∧
    (s.params.prime % 4 = 3 →
      ∃ t, exec (.legq rs1) s = .next t ∧ Completed (.error .illegal) s t ∧ ChangesOnly none false false s t ∧
        t.report = s.report)

/-- R281, R282, R323: UNPACK chains the PB little-endian bytes of the image, unreduced, into rd; with PBUF_LEN below PB it
completes with SHAPE and leaves rd scrubbed. -/
def Obligations.UnpackResult : Prop :=
  ∀ (s : State) (rd : Reg), s.params ∈ Params.decided →
    (s.params.packedBytes ≤ s.pbufLen.toNat →
      ∃ t, exec (.unpack rd) s = .next t ∧ WritesElem rd s t ∧ wf s.params (t.elem rd) = true ∧
        val s.params (t.elem rd) =
          ((List.range s.params.packedBytes).map fun j => ((s.pbufByte j).toNat : Int) * 2 ^ (8 * j)).sum) ∧
    (s.pbufLen.toNat < s.params.packedBytes →
      ∃ t, exec (.unpack rd) s = .next t ∧ Completed (.error .shape) s t ∧
        ChangesOnly (some rd) false false s t ∧ t.report = s.report ∧
        t.elem rd = List.replicate s.params.numLimbs 0xFFFFFFFFFFFFFFFF#64)

/-- R283: PACK of a WF register writes the PB little-endian bytes of its residue, pad bytes 0, and PBUF_LEN = PB; the register
keeps its limbs. -/
def Obligations.PackResult : Prop :=
  ∀ (s : State) (rs1 : Reg), s.params ∈ Params.decided → s.operandOk rs1 = true →
    ∃ t, exec (.pack rs1) s = .next t ∧ Completed .ok s t ∧ ChangesOnly none false true s t ∧ t.report = s.report ∧
      (∀ j, j < s.params.packedBytes → (t.pbufByte j).toNat = s.elemResidue rs1 / 2 ^ (8 * j) % 256) ∧
      (∀ j, s.params.packedBytes ≤ j → t.pbufByte j = 0#8) ∧
      t.pbuf.length = s.params.pbufWords ∧ t.pbufLen.toNat = s.params.packedBytes

/-- R284: PACK of a WF register and then UNPACK is its NORM, limb for limb; UNPACK of an image of a value below p and then
PACK gives its bytes back. -/
def Obligations.PackUnpackRoundTrip : Prop :=
  ∀ (s : State) (rd rs1 : Reg), s.params ∈ Params.decided →
    (s.operandOk rs1 = true →
      ∃ t u, execAll [.pack rs1, .unpack rd] s = .next t ∧ exec (.norm rd rs1) s = .next u ∧
        t.elem rd = u.elem rd) ∧
    (s.params.packedBytes ≤ s.pbufLen.toNat → s.imageValue s.params.packedBytes < s.params.prime →
      ∃ t, execAll [.unpack rd, .pack rd] s = .next t ∧
        ∀ j, j < s.params.packedBytes → t.pbufByte j = s.pbufByte j)

/-- R285 to R287, R291: MOV copies any pattern; SETI of a scalar in range is exactly chain(s), the canonical vector where
s ≥ 0; SCRUB writes all-ones; NOP changes nothing but its completion. -/
def Obligations.MovSetiScrubNopResults : Prop :=
  ∀ (s : State) (rd rs1 : Reg), s.params ∈ Params.decided →
    (∃ t, exec (.mov rd rs1) s = .next t ∧ WritesElem rd s t ∧ t.elem rd = s.elem rs1) ∧
    (s.params.addMin ≤ s.scalarInt → s.scalarInt ≤ s.params.addMax →
      ∃ t, exec (.seti rd) s = .next t ∧ WritesElem rd s t ∧ wf s.params (t.elem rd) = true ∧
        val s.params (t.elem rd) = s.scalarInt ∧
        (0 ≤ s.scalarInt → normalized s.params (t.elem rd) = true)) ∧
    (∃ t, exec (.scrub rd) s = .next t ∧ WritesElem rd s t ∧ t.operandOk rd = false ∧
      t.elem rd = List.replicate s.params.numLimbs 0xFFFFFFFFFFFFFFFF#64) ∧
    (∃ t, exec .nop s = .next t ∧ Completed .ok s t ∧ ChangesOnly none false false s t ∧ t.report = s.report)

/-- R289, R290: CMPEQ writes the DIFF bit, 0 exactly for operands congruent mod p; ISZERO writes 1 exactly for an operand
congruent to 0. -/
def Obligations.CmpeqIszeroResults : Prop :=
  ∀ (s : State) (rs1 rs2 : Reg), s.params ∈ Params.decided → s.operandOk rs1 = true → s.operandOk rs2 = true →
    (∃ t, exec (.cmpeq rs1 rs2) s = .next t ∧ WritesResult s t ∧
      (s.elemVal rs1 ≡ s.elemVal rs2 [ZMOD (s.params.prime : Int)] → t.result = 0#64) ∧
      (¬s.elemVal rs1 ≡ s.elemVal rs2 [ZMOD (s.params.prime : Int)] → t.result = 1#64)) ∧
    (∃ t, exec (.iszero rs1) s = .next t ∧ WritesResult s t ∧
      (s.elemVal rs1 ≡ 0 [ZMOD (s.params.prime : Int)] → t.result = 1#64) ∧
      (¬s.elemVal rs1 ≡ 0 [ZMOD (s.params.prime : Int)] → t.result = 0#64))

/-- R155: NORM's result is Normalized and congruent to its input; NORM of it is the same vector; and two WF registers have
equal NORM results exactly when their values are congruent mod p. -/
def Obligations.NormLaws : Prop :=
  ∀ (s : State) (a b rd rd' : Reg), s.params ∈ Params.decided → s.operandOk a = true → s.operandOk b = true →
    ∃ t u v, exec (.norm rd a) s = .next t ∧ exec (.norm rd b) s = .next u ∧
      execAll [.norm rd a, .norm rd' rd] s = .next v ∧
      normalized s.params (t.elem rd) = true ∧
      val s.params (t.elem rd) ≡ s.elemVal a [ZMOD (s.params.prime : Int)] ∧
      v.elem rd' = t.elem rd ∧
      (t.elem rd = u.elem rd ↔ s.elemVal a ≡ s.elemVal b [ZMOD (s.params.prime : Int)])

/-- R189: the laws of add and subtract, on WF registers e0, e1, e2, a zero vector in e3, and SCALAR in its range for the last.
The limb-for-limb laws are pairs with equal results; x − x is the zero vector where loose results are exact (R157); the laws
written =p are pairs with equal NORM results. -/
def Obligations.AddSubtractLaws : Prop :=
  ∀ s : State, s.params ∈ Params.decided → s.operandOk 0 = true → s.operandOk 1 = true → s.operandOk 2 = true →
    s.elem 3 = chain s.params 0 →
      (∀ l ∈ [([Instr.add 5 0 1], [Instr.add 5 1 0]),
             ([.add 4 0 1, .add 4 4 2, .norm 5 4], [.add 4 1 2, .add 4 0 4, .norm 5 4]),
             ([.neg 5 0], [.sub 5 3 0]),
             ([.sub 4 0 1, .norm 5 4], [.neg 4 1, .add 4 0 4, .norm 5 4])],
        ∃ t u, execAll l.1 s = .next t ∧ execAll l.2 s = .next u ∧ t.report = s.report ∧ u.report = s.report ∧
          t.elem 5 = u.elem 5) ∧
      (s.setup.looseExact = true → ∃ t, exec (.sub 5 0 0) s = .next t ∧ t.elem 5 = List.replicate s.params.numLimbs 0#64) ∧
      (s.params.addMin ≤ s.scalarInt → s.scalarInt ≤ s.params.addMax →
        ∃ t u, execAll [.adds 4 0, .norm 5 4] s = .next t ∧ execAll [.seti 4, .add 4 0 4, .norm 5 4] s = .next u ∧
          t.report = s.report ∧ u.report = s.report ∧ t.elem 5 = u.elem 5)

/-- R224: the laws of multiply, on WF registers e0, e1, e2, and SCALAR in the ranges of MULS and SETI for the last. The
limb-for-limb laws are pairs with equal results; the laws written =p are pairs with equal NORM results. -/
def Obligations.MultiplicationLaws : Prop :=
  ∀ s : State, s.params ∈ Params.decided → s.operandOk 0 = true → s.operandOk 1 = true → s.operandOk 2 = true →
      (∀ l ∈ [([Instr.mul 5 0 1], [Instr.mul 5 1 0]),
             ([.mul 4 0 1, .mul 4 4 2, .norm 5 4], [.mul 4 1 2, .mul 4 0 4, .norm 5 4]),
             ([.add 4 1 2, .mul 4 0 4, .norm 5 4], [.mul 3 0 1, .mul 4 0 2, .add 4 3 4, .norm 5 4]),
             ([.sqr 5 0], [.mul 5 0 0])],
        ∃ t u, execAll l.1 s = .next t ∧ execAll l.2 s = .next u ∧ t.report = s.report ∧ u.report = s.report ∧
          t.elem 5 = u.elem 5) ∧
      (s.params.mulMin ≤ s.scalarInt → s.scalarInt ≤ s.params.mulMax →
        s.params.addMin ≤ s.scalarInt → s.scalarInt ≤ s.params.addMax →
        ∃ t u, execAll [.muls 4 0, .norm 5 4] s = .next t ∧ execAll [.seti 4, .mul 4 0 4, .norm 5 4] s = .next u ∧
          t.report = s.report ∧ u.report = s.report ∧ t.elem 5 = u.elem 5)

/-- R254: the laws of the power ladders, on WF registers e0 and e1: a·INV(a) is 1; the square of SQRT(a) is a, and
a·ISQRT(a)² is 1, where LEG(a) = 1; a non-zero square has LEG 1; and LEG is multiplicative, RESULT read as a signed
integer. -/
def Obligations.PowerLadderLaws : Prop :=
  ∀ s : State, s.params ∈ Params.decided → s.operandOk 0 = true → s.operandOk 1 = true →
    ∃ legA legB legAB legAA a1 a2 n a3,
      exec (.leg 0) s = .next legA ∧ exec (.leg 1) s = .next legB ∧
      execAll [.mul 3 0 1, .leg 3] s = .next legAB ∧ execAll [.mul 3 0 0, .leg 3] s = .next legAA ∧
      execAll [.inv 3 0, .mul 4 0 3, .norm 5 4] s = .next a1 ∧
      execAll [.sqrt 3 0, .sqr 4 3, .norm 5 4] s = .next a2 ∧ exec (.norm 5 0) s = .next n ∧
      execAll [.isqrt 3 0, .sqr 4 3, .mul 4 0 4, .norm 5 4] s = .next a3 ∧
      (s.elemResidue 0 ≠ 0 → a1.elem 5 = canon s.params 1) ∧
      (legA.result = 1#64 → a2.elem 5 = n.elem 5) ∧
      (legA.result = 1#64 → a3.elem 5 = canon s.params 1) ∧
      (s.elemResidue 0 ≠ 0 → legAA.result = 1#64) ∧
      legAB.result.toInt = legA.result.toInt * legB.result.toInt

/-! ## Model-level faults -/

/-- R148, R326: a command that writes rd and has a source that is not WF completes normally with an unspecified rd, and
changes nothing else. That `exec` goes on there with free limbs and records the fault in `report`, where the rules have a model
stop, is the model's choice (log 1); `StrictStepStopsAtModelFaults` has the stop. -/
def Obligations.NonWfOperandLeavesRdUnspecified : Prop :=
  ∀ (s : State) (i : Instr) (rd : Reg), destination i = some rd →
    (∃ r ∈ checkedSources i, s.operandOk r = false) →
      ∃ t, exec i s = .next t ∧ Completed .ok s t ∧ ChangesOnly (some rd) false false s t ∧
        t.elem rd = (List.range s.params.numLimbs).map (Config.freeLimb s.draws) ∧ t.draws = s.draws + 1 ∧
        t.report = some (s.report.getD .operand)

/-- R188, R220, R326: ADDS, SUBS, MULS and SETI with SCALAR out of range, and a WF source, complete normally with an
unspecified rd, and change nothing else. That `exec` goes on there with free limbs and records the fault in `report`, where the
rules have a model fault, is the model's choice (log 1). -/
def Obligations.OutOfRangeScalarLeavesRdUnspecified : Prop :=
  ∀ (s : State) (i : Instr) (rd : Reg), destination i = some rd → scalarInRange s.params s.scalar i = false →
    (∀ r ∈ checkedSources i, s.operandOk r = true) →
      ∃ t, exec i s = .next t ∧ Completed .ok s t ∧ ChangesOnly (some rd) false false s t ∧
        t.elem rd = (List.range s.params.numLimbs).map (Config.freeLimb s.draws) ∧ t.draws = s.draws + 1 ∧
        t.report = some (s.report.getD .scalar)

/-- R148, R326: a query with a source that is not WF completes normally with an unspecified RESULT, and changes nothing
else. LEGQ is such a query where it exists (R106). That `exec` goes on there with a free RESULT and records the fault in
`report`, where the rules have a model stop, is the model's choice (log 1). -/
def Obligations.NonWfOperandLeavesResultUnspecified : Prop :=
  ∀ (s : State) (i : Instr), writesResult i = true → i.existsOn s.params = true →
    (∃ r ∈ checkedSources i, s.operandOk r = false) →
      ∃ t, exec i s = .next t ∧ Completed .ok s t ∧ ChangesOnly none true false s t ∧
        t.result = Config.freeResult s.draws ∧ t.draws = s.draws + 1 ∧ t.report = some (s.report.getD .operand)

/-- R148, R283, R326: PACK of a register that is not WF, which writes neither rd nor RESULT, completes normally and changes
nothing else: PBUF and PBUF_LEN keep their values. That `exec` goes on there and records the fault in `report`, where the rules
have a model stop, is the model's choice (log 1). -/
def Obligations.NonWfPackChangesNothingElse : Prop :=
  ∀ (s : State) (rs1 : Reg), s.operandOk rs1 = false →
    ∃ t, exec (.pack rs1) s = .next t ∧ Completed .ok s t ∧ ChangesOnly none false false s t ∧
      t.draws = s.draws ∧ t.report = some (s.report.getD .operand)

/-- R326: the strict step, in every cycle and whatever the host does. Where the cycle completes a command (`u` is the state
after the host's half of the cycle), it stops exactly at a model-level fault, UB_OPERAND before UB_SCALAR (R325), and is
otherwise the step, which reports nothing. Where the cycle completes no command, or an illegal word, and where the host's half
stops, it is the step. After a fault that is already on report it is the step as well (log 1). -/
def Obligations.StrictStepStopsAtModelFaults : Prop :=
  ∀ s : State,
    (s.report ≠ none → strictStep s = step s) ∧
    ((∀ u, s.hostHalf ≠ .next u) → strictStep s = step s) ∧
    ∀ u, s.report = none → s.hostHalf = .next u →
      (u.phase = .idle ∨ (∃ w left, u.phase = .busy w left ∧ (1 < left ∨ decodeOn u.params w = none)) →
        ∃ t, step s = .next t ∧ strictStep s = .next t ∧ t.report = none) ∧
      ∀ w left i, u.phase = .busy w left → left ≤ 1 → decode w = some i → i.existsOn u.params = true →
        ((∃ r ∈ checkedSources i, u.operandOk r = false) → strictStep s = .fault (.ub .operand)) ∧
        ((∀ r ∈ checkedSources i, u.operandOk r = true) → scalarInRange u.params u.scalar i = false →
          strictStep s = .fault (.ub .scalar)) ∧
        ((∀ r ∈ checkedSources i, u.operandOk r = true) → scalarInRange u.params u.scalar i = true →
          ∃ t, step s = .next t ∧ strictStep s = .next t ∧ t.report = none)

/-! ## Data paths -/

/-- R143, R149: the 64-bit carry chain on limbs of magnitude at most 2^63 − 64 is the chained vector of their value. -/
def Obligations.CarryChainIsChain : Prop :=
  ∀ (p : Params) (t : Element), p ∈ Params.decided → t ≠ [] →
    (∀ l ∈ t, -(2 ^ 63 - 64) ≤ l.toInt ∧ l.toInt ≤ 2 ^ 63 - 64) →
      carryChain p t = chainK p t.length (val p t)

/-- R150, R152, R154: the 64-bit data paths of REDUCE and NORM compute chain(fold(val a)) and canon(val a). -/
def Obligations.ReduceAndNormalizePaths : Prop :=
  ∀ (p : Params) (a : Element), p ∈ Params.decided → wf p a = true →
    reducePath p a = chain p (fold p (val p a)) ∧ normalizePath p a = canon p (val p a)

/-- R181, R185: the 64-bit add and subtract data paths, with the 65-bit limb-0 adder of the scalar forms, compute the closed
forms of R182, R183, R186 and R187. -/
def Obligations.AddSubPaths : Prop :=
  ∀ (p : Params) (a b : Element) (v : Word), p ∈ Params.decided → wf p a = true →
    (wf p b = true →
      addsubPath p a b false = chain p (fold p (val p a) + fold p (val p b)) ∧
      addsubPath p a b true = chain p (fold p (val p a) - fold p (val p b))) ∧
    (p.addMin ≤ v.toInt → v.toInt ≤ p.addMax →
      addsubScalarPath p a v false = chain p (fold p (val p a) + v.toInt) ∧
      addsubScalarPath p a v true = chain p (fold p (val p a) - v.toInt))

/-- R210 to R217: the 64-bit multiply data path (half-limbs, columns, pairing, carry chain, split at bit n, reduction by c,
final add) computes the closed form of R218. -/
def Obligations.MulPathIsTheClosedForm : Prop :=
  ∀ (p : Params) (a b : Element), p ∈ Params.decided → wf p a = true → wf p b = true →
    mulPath p a b = chain p (val p a * val p b % 2 ^ p.n + fold p (p.c * (val p a * val p b / 2 ^ p.n)))

/-- R222: the 64-bit MULS data path computes the closed form of R220. -/
def Obligations.MulsPathIsTheClosedForm : Prop :=
  ∀ (p : Params) (a : Element) (v : Word), p ∈ Params.decided → wf p a = true → p.mulMin ≤ v.toInt →
    v.toInt ≤ p.mulMax → mulsPath p a v = chain p (fold p (val p a * v.toInt))

/-- R241, R242: the reference ladder over the block's own multiplier and normalizer computes canon(x^e mod p), for every
exponent e ≥ 1. -/
def Obligations.LadderPathIsThePower : Prop :=
  ∀ (p : Params) (a : Element) (e : Nat), p ∈ Params.decided → wf p a = true → 1 ≤ e →
    ladderPath p a e = canon p (val p a ^ e)
end

