-- ==== Sys2Proof/Laws/Encoding.lean ====
section
/-! SUPPORT. The fields of a laid-out command word, and the bits each format's mask keeps of it (30_encoding.md R101, R102). -/

namespace Sys2Proof

variable (op : BitVec 8) (rd rs1 rs2 : Reg)

@[simp] theorem opcodeField_layout : opcodeField (layout op rd rs1 rs2) = op := by
  apply BitVec.eq_of_getLsbD_eq
  intro i hi
  interval_cases i <;> (simp only [opcodeField, layout, BitVec.getLsbD_extractLsb', BitVec.getLsbD_append]; simp)

@[simp] theorem rdField_layout : rdField (layout op rd rs1 rs2) = rd := by
  apply BitVec.eq_of_getLsbD_eq
  intro i hi
  interval_cases i <;> (simp only [rdField, layout, BitVec.getLsbD_extractLsb', BitVec.getLsbD_append]; simp)

@[simp] theorem rs1Field_layout : rs1Field (layout op rd rs1 rs2) = rs1 := by
  apply BitVec.eq_of_getLsbD_eq
  intro i hi
  interval_cases i <;> (simp only [rs1Field, layout, BitVec.getLsbD_extractLsb', BitVec.getLsbD_append]; simp)

@[simp] theorem rs2Field_layout : rs2Field (layout op rd rs1 rs2) = rs2 := by
  apply BitVec.eq_of_getLsbD_eq
  intro i hi
  interval_cases i <;> (simp only [rs2Field, layout, BitVec.getLsbD_extractLsb', BitVec.getLsbD_append]; simp)

theorem layout_mask_r3 : layout op rd rs1 rs2 &&& Format.r3.mask = op.setWidth 32 := by
  apply BitVec.eq_of_getLsbD_eq
  intro i hi
  interval_cases i <;> (simp only [layout, Format.mask, BitVec.getLsbD_and, BitVec.getLsbD_append, BitVec.getLsbD_setWidth]; simp)

theorem layout_mask_r2 : layout op rd rs1 0 &&& Format.r2.mask = op.setWidth 32 := by
  apply BitVec.eq_of_getLsbD_eq
  intro i hi
  interval_cases i <;> (simp only [layout, Format.mask, BitVec.getLsbD_and, BitVec.getLsbD_append, BitVec.getLsbD_setWidth]; simp)

theorem layout_mask_r1d : layout op rd 0 0 &&& Format.r1d.mask = op.setWidth 32 := by
  apply BitVec.eq_of_getLsbD_eq
  intro i hi
  interval_cases i <;> (simp only [layout, Format.mask, BitVec.getLsbD_and, BitVec.getLsbD_append, BitVec.getLsbD_setWidth]; simp)

theorem layout_mask_r1s : layout op 0 rs1 0 &&& Format.r1s.mask = op.setWidth 32 := by
  apply BitVec.eq_of_getLsbD_eq
  intro i hi
  interval_cases i <;> (simp only [layout, Format.mask, BitVec.getLsbD_and, BitVec.getLsbD_append, BitVec.getLsbD_setWidth]; simp)

theorem layout_mask_r2s : layout op 0 rs1 rs2 &&& Format.r2s.mask = op.setWidth 32 := by
  apply BitVec.eq_of_getLsbD_eq
  intro i hi
  interval_cases i <;> (simp only [layout, Format.mask, BitVec.getLsbD_and, BitVec.getLsbD_append, BitVec.getLsbD_setWidth]; simp)

theorem layout_mask_r0 : layout op 0 0 0 &&& Format.r0.mask = op.setWidth 32 := by
  apply BitVec.eq_of_getLsbD_eq
  intro i hi
  interval_cases i <;> (simp only [layout, Format.mask, BitVec.getLsbD_and, BitVec.getLsbD_append, BitVec.getLsbD_setWidth]; simp)

end Sys2Proof
end

