-- ==== Sys2Proof/Laws/Limbs.lean ====
section
/-! SUPPORT. The algebra of limb vectors: chain and val are inverse on the WF range, fold and canon keep the residue
(40_limb_model.md R140 to R146). -/

namespace Sys2Proof

/-- The facts about a parameter set that the limb algebra uses; the decided sets have them. -/
structure Params.Sound (p : Params) : Prop where
  two_limbs : 2 ≤ p.numLimbs
  db_le : p.db ≤ 61
  hdb_pos : 1 ≤ p.hdb
  hdb_le : p.hdb ≤ p.db
  n_eq : p.n = p.hdb + p.db * (p.numLimbs - 1)
  prime_eq : (p.prime : Int) = 2 ^ p.n - p.c
  c_small : 2 * p.c < 2 ^ p.n
  c_sq : 16 * p.c ^ 2 < 2 ^ (p.db * (p.numLimbs - 1))
  scalar_room : 64 ≤ p.db * (p.numLimbs - 1)
  packed : 8 * p.packedBytes ≤ p.n + 2

theorem Params.sound_of_decided {p : Params} (h : p ∈ Params.decided) : p.Sound := by
  simp only [Params.decided, List.mem_cons, List.not_mem_nil, or_false] at h
  rcases h with rfl | rfl | rfl | rfl <;> constructor <;> decide +kernel

namespace Machine

theorem toInt_ofInt_of_range {x : Int} (h1 : -(2 : Int) ^ 63 ≤ x) (h2 : x < 2 ^ 63) :
    (BitVec.ofInt 64 x).toInt = x := by
  rw [BitVec.toInt_ofInt]
  exact Int.bmod_eq_of_le (by omega) (by omega)

@[simp] theorem length_chainK (p : Params) : ∀ k V, (chainK p k V).length = k
  | 0, _ => rfl
  | 1, _ => rfl
  | k + 2, V => by rw [chainK, List.length_cons, length_chainK p (k + 1)]

@[simp] theorem length_chain (p : Params) (V : Int) : (chain p V).length = p.numLimbs := length_chainK ..

@[simp] theorem length_canon (p : Params) (V : Int) : (canon p V).length = p.numLimbs := length_chainK ..

@[simp] theorem length_scrubbed (p : Params) : p.scrubbed.length = p.numLimbs := List.length_replicate ..

theorem two_pow_split (a b : Nat) : (2 : Int) ^ (a + b) = 2 ^ a * 2 ^ b := pow_add ..

/-- R143: a chained vector has the value it chains, where its top limb fits. -/
theorem val_chainK (p : Params) (hdb : p.db ≤ 61) :
    ∀ k V, -(2 : Int) ^ 63 ≤ V / 2 ^ (p.db * k) → V / 2 ^ (p.db * k) < 2 ^ 63 → val p (chainK p (k + 1) V) = V
  | 0, V, h1, h2 => by
      simp only [Nat.mul_zero, pow_zero, Int.ediv_one] at h1 h2
      simp [chainK, val, toInt_ofInt_of_range h1 h2]
  | k + 1, V, h1, h2 => by
      have hpos : (0 : Int) < 2 ^ p.db := by positivity
      have hlt : (2 : Int) ^ p.db ≤ 2 ^ 61 := pow_le_pow_right₀ (by norm_num) hdb
      have hdiv : V / 2 ^ p.db / 2 ^ (p.db * k) = V / 2 ^ (p.db * (k + 1)) := by
        rw [Int.ediv_ediv_of_nonneg hpos.le, ← pow_add, Nat.mul_succ, Nat.add_comm]
      rw [chainK, val, val_chainK p hdb k _ (hdiv ▸ h1) (hdiv ▸ h2), toInt_ofInt_of_range]
      · rw [Int.add_comm]; exact Int.mul_ediv_add_emod ..
      · have := Int.emod_nonneg V hpos.ne'; omega
      · have := Int.emod_lt_of_pos V hpos; omega

theorem chainK_cons (p : Params) (k : Nat) (V : Int) :
    chainK p (k + 2) V = BitVec.ofInt 64 (V % 2 ^ p.db) :: chainK p (k + 1) (V / 2 ^ p.db) := rfl

/-- The top limb of a chained vector (R143). -/
theorem topLimb_chainK (p : Params) : ∀ k V, topLimb (chainK p (k + 1) V) = BitVec.ofInt 64 (V / 2 ^ (p.db * k))
  | 0, V => by simp [chainK, topLimb]
  | k + 1, V => by
      have hne : chainK p (k + 1) (V / 2 ^ p.db) ≠ [] := fun e => by simpa using congrArg List.length e
      have hpos : (0 : Int) < 2 ^ p.db := by positivity
      have hrec := topLimb_chainK p k (V / 2 ^ p.db)
      rw [topLimb, List.getLastD_eq_getLast?, List.getLast?_eq_some_getLast hne, Option.getD_some] at hrec
      rw [chainK_cons, topLimb, List.getLastD_eq_getLast?, List.getLast?_cons_of_ne_nil hne,
        List.getLast?_eq_some_getLast hne, Option.getD_some, hrec, Int.ediv_ediv_of_nonneg hpos.le, ← pow_add,
        Nat.mul_succ, Nat.add_comm]

/-- The low limbs of a chained vector lie in [0, 2^DB) (R143). -/
theorem dropLast_chainK (p : Params) (hdb : p.db ≤ 61) : ∀ k V, (chainK p (k + 1) V).dropLast.all (lowLimbOk p) = true
  | 0, V => by simp [chainK]
  | k + 1, V => by
      have hne : chainK p (k + 1) (V / 2 ^ p.db) ≠ [] := fun e => by simpa using congrArg List.length e
      have hpos : (0 : Int) < 2 ^ p.db := by positivity
      have hlt : (2 : Int) ^ p.db ≤ 2 ^ 61 := pow_le_pow_right₀ (by norm_num) hdb
      have h0 := Int.emod_nonneg V hpos.ne'
      have h1 := Int.emod_lt_of_pos V hpos
      rw [chainK_cons, List.dropLast_cons_of_ne_nil hne, List.all_cons, dropLast_chainK p hdb k, Bool.and_true,
        lowLimbOk, toInt_ofInt_of_range (by omega) (by omega)]
      simp [h0, h1]

/-- A vector whose low limbs lie in [0, 2^DB) is the chained vector of its value (R143). -/
theorem chainK_val (p : Params) :
    ∀ L : Element, L.dropLast.all (lowLimbOk p) = true → chainK p L.length (val p L) = L
  | [], _ => rfl
  | [t], _ => by simp [chainK, val, BitVec.ofInt_toInt]
  | l :: u :: ls, h => by
      have hpos : (0 : Int) < 2 ^ p.db := by positivity
      simp only [List.dropLast_cons_cons, List.all_cons, Bool.and_eq_true, lowLimbOk, decide_eq_true_eq] at h
      obtain ⟨⟨h0, h1⟩, hrest⟩ := h
      have hmod : val p (l :: u :: ls) % 2 ^ p.db = l.toInt := by
        rw [val, Int.add_mul_emod_self_left, Int.emod_eq_of_lt h0 h1]
      have hdiv : val p (l :: u :: ls) / 2 ^ p.db = val p (u :: ls) := by
        rw [val, Int.add_mul_ediv_left _ _ hpos.ne', Int.ediv_eq_zero_of_lt h0 h1, Int.zero_add]
      rw [List.length_cons, List.length_cons, chainK_cons, hmod, hdiv, BitVec.ofInt_toInt, ← List.length_cons,
        chainK_val p (u :: ls) hrest]

/-- The value of a vector from its low limbs and its top limb. -/
theorem val_bounds (p : Params) :
    ∀ L : Element, L ≠ [] → L.dropLast.all (lowLimbOk p) = true →
      2 ^ (p.db * (L.length - 1)) * (topLimb L).toInt ≤ val p L ∧
        val p L < 2 ^ (p.db * (L.length - 1)) * ((topLimb L).toInt + 1)
  | [], h, _ => absurd rfl h
  | [t], _, _ => by simp [val, topLimb]
  | l :: u :: ls, _, h => by
      simp only [List.dropLast_cons_cons, List.all_cons, Bool.and_eq_true, lowLimbOk, decide_eq_true_eq] at h
      obtain ⟨⟨h0, h1⟩, hrest⟩ := h
      obtain ⟨b0, b1⟩ := val_bounds p (u :: ls) (by simp) hrest
      have htop : topLimb (l :: u :: ls) = topLimb (u :: ls) := by simp [topLimb]
      have hpow : (2 : Int) ^ (p.db * ((l :: u :: ls).length - 1)) =
          2 ^ p.db * 2 ^ (p.db * ((u :: ls).length - 1)) := by
        rw [← pow_add]; congr 1; simp [Nat.mul_succ]; ring
      have hpos : (0 : Int) < 2 ^ p.db := by positivity
      rw [htop, hpow, val]
      constructor <;> nlinarith

/-- WF says that a vector is the chained vector of a value in [−2^(n+2), 2^(n+2)) (R144). -/
theorem wf_chain {p : Params} (hp : p.Sound) {V : Int} (h1 : -(2 : Int) ^ (p.n + 2) ≤ V) (h2 : V < 2 ^ (p.n + 2)) :
    wf p (chain p V) = true := by
  obtain ⟨k, hk⟩ : ∃ k, p.numLimbs = k + 1 := ⟨p.numLimbs - 1, by have := hp.two_limbs; omega⟩
  have hn : p.n + 2 = (p.hdb + 2) + p.db * k := by have := hp.n_eq; rw [hk] at this; simp at this; omega
  have hpos : (0 : Int) < 2 ^ (p.db * k) := by positivity
  have b1 : -(2 : Int) ^ (p.hdb + 2) ≤ V / 2 ^ (p.db * k) := by
    rw [Int.le_ediv_iff_mul_le hpos, Int.neg_mul, ← pow_add, ← hn]; exact h1
  have b2 : V / 2 ^ (p.db * k) < 2 ^ (p.hdb + 2) := by
    rw [Int.ediv_lt_iff_lt_mul hpos, ← pow_add, ← hn]; exact h2
  have hle : (2 : Int) ^ (p.hdb + 2) ≤ 2 ^ 63 :=
    pow_le_pow_right₀ (by norm_num) (by have := hp.hdb_le; have := hp.db_le; omega)
  simp only [wf, chain, hk, length_chainK, beq_self_eq_true, dropLast_chainK p hp.db_le, topLimb_chainK, topLimbOk,
    Bool.true_and]
  rw [toInt_ofInt_of_range (by omega) (by omega)]
  simp [b1, b2]

/-- The value of a chained vector in the WF range (R143, R144). -/
theorem val_chain {p : Params} (hp : p.Sound) {V : Int} (h1 : -(2 : Int) ^ (p.n + 2) ≤ V) (h2 : V < 2 ^ (p.n + 2)) :
    val p (chain p V) = V := by
  obtain ⟨k, hk⟩ : ∃ k, p.numLimbs = k + 1 := ⟨p.numLimbs - 1, by have := hp.two_limbs; omega⟩
  have hn : p.n + 2 = (p.hdb + 2) + p.db * k := by have := hp.n_eq; rw [hk] at this; simp at this; omega
  have hpos : (0 : Int) < 2 ^ (p.db * k) := by positivity
  have hle : (2 : Int) ^ (p.hdb + 2) ≤ 2 ^ 63 :=
    pow_le_pow_right₀ (by norm_num) (by have := hp.hdb_le; have := hp.db_le; omega)
  have b1 : -(2 : Int) ^ (p.hdb + 2) ≤ V / 2 ^ (p.db * k) := by
    rw [Int.le_ediv_iff_mul_le hpos, Int.neg_mul, ← pow_add, ← hn]; exact h1
  have b2 : V / 2 ^ (p.db * k) < 2 ^ (p.hdb + 2) := by
    rw [Int.ediv_lt_iff_lt_mul hpos, ← pow_add, ← hn]; exact h2
  rw [chain, hk]
  exact val_chainK p hp.db_le k V (by omega) (by omega)

/-- A WF vector has a value in [−2^(n+2), 2^(n+2)) and is its chained vector (R143, R144). -/
theorem wf_spec {p : Params} (hp : p.Sound) {L : Element} (h : wf p L = true) :
    -(2 : Int) ^ (p.n + 2) ≤ val p L ∧ val p L < 2 ^ (p.n + 2) ∧ chain p (val p L) = L := by
  simp only [wf, Bool.and_eq_true, beq_iff_eq, topLimbOk, decide_eq_true_eq] at h
  obtain ⟨⟨hlen, hlow⟩, ht1, ht2⟩ := h
  have hD := hp.two_limbs
  have hne : L ≠ [] := fun e => by simp [e] at hlen; omega
  obtain ⟨b1, b2⟩ := val_bounds p L hne hlow
  have hn : p.n + 2 = p.db * (L.length - 1) + (p.hdb + 2) := by have := hp.n_eq; rw [hlen]; omega
  have hpos : (0 : Int) < 2 ^ (p.db * (L.length - 1)) := by positivity
  refine ⟨?_, ?_, by rw [chain, ← hlen, chainK_val p L hlow]⟩
  · rw [hn, pow_add]; nlinarith
  · rw [hn, pow_add]; nlinarith

/-- fold keeps the residue mod p (R145). -/
theorem fold_mod {p : Params} (hp : p.Sound) (V : Int) : (fold p V - V) % (p.prime : Int) = 0 := by
  have h : fold p V - V = (p.prime : Int) * -(V / 2 ^ p.n) := by
    have := Int.mul_ediv_add_emod V (2 ^ p.n)
    rw [fold, hp.prime_eq]; linarith
  rw [h, Int.mul_emod_right]

/-- The range of a fold of a WF value (R145). -/
theorem fold_range {p : Params} {V : Int} (h1 : -(2 : Int) ^ (p.n + 2) ≤ V) (h2 : V < 2 ^ (p.n + 2)) :
    -(4 * p.c : Int) ≤ fold p V ∧ fold p V < 2 ^ p.n + 3 * p.c := by
  have hpos : (0 : Int) < 2 ^ p.n := by positivity
  have q1 : -4 ≤ V / 2 ^ p.n := by
    rw [Int.le_ediv_iff_mul_le hpos]; rw [pow_add] at h1; linarith
  have q2 : V / 2 ^ p.n < 4 := by
    rw [Int.ediv_lt_iff_lt_mul hpos]; rw [pow_add] at h2; linarith
  have m1 := Int.emod_nonneg V hpos.ne'
  have m2 := Int.emod_lt_of_pos V hpos
  have hc : (0 : Int) ≤ p.c := Int.natCast_nonneg _
  unfold fold
  constructor <;> nlinarith

theorem prime_pos {p : Params} (hp : p.Sound) : (0 : Int) < p.prime := by
  have h1 := hp.prime_eq
  have h2 : (2 * p.c : Int) < 2 ^ p.n := by exact_mod_cast hp.c_small
  have : (0 : Int) ≤ p.c := Int.natCast_nonneg _
  omega

/-- canon's vector: WF, of value the residue, and Normalized (R146). -/
theorem canon_spec {p : Params} (hp : p.Sound) (v : Int) :
    wf p (canon p v) = true ∧ val p (canon p v) = v % p.prime ∧ normalized p (canon p v) = true := by
  have hpos := prime_pos hp
  have h0 := Int.emod_nonneg v hpos.ne'
  have h1 := Int.emod_lt_of_pos v hpos
  have hc : (0 : Int) ≤ p.c := Int.natCast_nonneg _
  have hn : (0 : Int) < 2 ^ p.n := by positivity
  have hpe := hp.prime_eq
  have r1 : -(2 : Int) ^ (p.n + 2) ≤ v % p.prime := by rw [pow_add]; linarith
  have r2 : v % p.prime < 2 ^ (p.n + 2) := by rw [pow_add]; linarith
  have hv : val p (canon p v) = v % p.prime := val_chain hp r1 r2
  refine ⟨wf_chain hp r1 r2, hv, ?_⟩
  rw [normalized, hv, canon, canon, Int.emod_emod_of_dvd _ (dvd_refl _), beq_self_eq_true]

end Machine

end Sys2Proof
end

