-- ==== Sys2Proof/Laws/Modular.lean ====
section
/-! SUPPORT. What the operations mod p compute: `powMod` is the power mod m (R241), so the ladders' results are residues. -/

namespace Sys2Proof.Machine

theorem powModBits_eq (m : Nat) :
    ∀ k b e acc, e < 2 ^ k → acc < m → powModBits m k b e acc = acc * b ^ e % m
  | 0, b, e, acc, he, hacc => by
      have : e = 0 := by simpa using he
      simp [powModBits, this, Nat.mod_eq_of_lt hacc]
  | k + 1, b, e, acc, he, hacc => by
      have hm : 0 < m := Nat.lt_of_le_of_lt (Nat.zero_le _) hacc
      have hk : e / 2 < 2 ^ k := by rw [pow_succ] at he; omega
      have hb : ∀ r : Nat, (b * b % m) ^ (e / 2) * r % m = (b * b) ^ (e / 2) * r % m := fun r => by
        rw [Nat.mul_mod, ← Nat.pow_mod, ← Nat.mul_mod]
      have hsq : (b * b) ^ (e / 2) = b ^ (2 * (e / 2)) := by rw [← pow_two, ← pow_mul]
      unfold powModBits
      split
      · next hodd =>
        rw [powModBits_eq m k _ _ _ hk (Nat.mod_lt _ hm), Nat.mul_comm, hb, hsq, Nat.mul_comm, Nat.mod_mul_mod,
          Nat.mul_assoc, ← pow_succ']
        congr 3; omega
      · next heven =>
        rw [powModBits_eq m k _ _ _ hk hacc, Nat.mul_comm, hb, hsq, Nat.mul_comm]
        congr 3; omega

/-- `powMod` is the power mod m (R241). -/
theorem powMod_eq (m x e : Nat) (hm : 1 < m) : powMod m x e = x ^ e % m := by
  have he : e < 2 ^ (Nat.log2 e + 1) := Nat.lt_log2_self
  rw [powMod, powModBits_eq m _ _ _ _ he (Nat.mod_lt _ (by omega)), Nat.mod_eq_of_lt hm, Nat.one_mul, ← Nat.pow_mod]

theorem powMod_lt (m x e : Nat) (hm : 1 < m) : powMod m x e < m := by
  rw [powMod_eq m x e hm]; exact Nat.mod_lt _ (by omega)

/-- The residue of canon's vector (R146). -/
theorem residue_canon {p : Params} (hp : p.Sound) (v : Int) : residue p (canon p v) = (v % p.prime).toNat := by
  rw [residue, (canon_spec hp v).2.1, Int.emod_emod_of_dvd _ (dvd_refl _)]

/-- What SQRT reads of the constant store: the residue of I (R45, R249). -/
theorem constI_residue {p : Params} (hp : p.Sound) (h1 : 1 < p.prime) (h2 : p.pclass = 2) :
    (constI p).map (residue p) = some (powMod p.prime 2 (expQuartic p)) := by
  rw [constI, if_pos h2, Option.map_some, residue_canon hp, ← Int.natCast_emod, Int.toNat_natCast,
    Nat.mod_eq_of_lt (powMod_lt _ _ _ h1)]

end Sys2Proof.Machine
end

