-- ==== Sys2Proof/Laws/State.lean ====
section
/-! SUPPORT. What each update of State does to each field: one lemma for each field and update, all true by definition. Element
registers are read through `elem`, whose lemmas stand at the end. -/

namespace Sys2Proof.Machine.State

variable (s : State)

@[simp] theorem setElem_d0 (r : Reg) (L : Element) : (s.setElem r L).d0 = s.d0 := rfl
@[simp] theorem setElem_d1 (r : Reg) (L : Element) : (s.setElem r L).d1 = s.d1 := rfl
@[simp] theorem setElem_d2 (r : Reg) (L : Element) : (s.setElem r L).d2 = s.d2 := rfl
@[simp] theorem setElem_done (r : Reg) (L : Element) : (s.setElem r L).done = s.done := rfl
@[simp] theorem setElem_err (r : Reg) (L : Element) : (s.setElem r L).err = s.err := rfl
@[simp] theorem setElem_overrun (r : Reg) (L : Element) : (s.setElem r L).overrun = s.overrun := rfl
@[simp] theorem setElem_errCode (r : Reg) (L : Element) : (s.setElem r L).errCode = s.errCode := rfl
@[simp] theorem setElem_ie (r : Reg) (L : Element) : (s.setElem r L).ie = s.ie := rfl
@[simp] theorem setElem_cmd (r : Reg) (L : Element) : (s.setElem r L).cmd = s.cmd := rfl
@[simp] theorem setElem_scalar (r : Reg) (L : Element) : (s.setElem r L).scalar = s.scalar := rfl
@[simp] theorem setElem_result (r : Reg) (L : Element) : (s.setElem r L).result = s.result := rfl
@[simp] theorem setElem_cmdCount (r : Reg) (L : Element) : (s.setElem r L).cmdCount = s.cmdCount := rfl
@[simp] theorem setElem_pbuf (r : Reg) (L : Element) : (s.setElem r L).pbuf = s.pbuf := rfl
@[simp] theorem setElem_pbufLen (r : Reg) (L : Element) : (s.setElem r L).pbufLen = s.pbufLen := rfl
@[simp] theorem setElem_phase (r : Reg) (L : Element) : (s.setElem r L).phase = s.phase := rfl
@[simp] theorem setElem_setup (r : Reg) (L : Element) : (s.setElem r L).setup = s.setup := rfl
@[simp] theorem setElem_inputs (r : Reg) (L : Element) : (s.setElem r L).inputs = s.inputs := rfl
@[simp] theorem setElem_readData (r : Reg) (L : Element) : (s.setElem r L).readData = s.readData := rfl
@[simp] theorem setElem_draws (r : Reg) (L : Element) : (s.setElem r L).draws = s.draws := rfl
@[simp] theorem setElem_report (r : Reg) (L : Element) : (s.setElem r L).report = s.report := rfl
@[simp] theorem setElem_params (r : Reg) (L : Element) : (s.setElem r L).params = s.params := rfl

@[simp] theorem setResult_regs (v : Word) : (s.setResult v).regs = s.regs := rfl
@[simp] theorem setResult_d0 (v : Word) : (s.setResult v).d0 = s.d0 := rfl
@[simp] theorem setResult_d1 (v : Word) : (s.setResult v).d1 = s.d1 := rfl
@[simp] theorem setResult_d2 (v : Word) : (s.setResult v).d2 = s.d2 := rfl
@[simp] theorem setResult_done (v : Word) : (s.setResult v).done = s.done := rfl
@[simp] theorem setResult_err (v : Word) : (s.setResult v).err = s.err := rfl
@[simp] theorem setResult_overrun (v : Word) : (s.setResult v).overrun = s.overrun := rfl
@[simp] theorem setResult_errCode (v : Word) : (s.setResult v).errCode = s.errCode := rfl
@[simp] theorem setResult_ie (v : Word) : (s.setResult v).ie = s.ie := rfl
@[simp] theorem setResult_cmd (v : Word) : (s.setResult v).cmd = s.cmd := rfl
@[simp] theorem setResult_scalar (v : Word) : (s.setResult v).scalar = s.scalar := rfl
@[simp] theorem setResult_result (v : Word) : (s.setResult v).result = v := rfl
@[simp] theorem setResult_cmdCount (v : Word) : (s.setResult v).cmdCount = s.cmdCount := rfl
@[simp] theorem setResult_pbuf (v : Word) : (s.setResult v).pbuf = s.pbuf := rfl
@[simp] theorem setResult_pbufLen (v : Word) : (s.setResult v).pbufLen = s.pbufLen := rfl
@[simp] theorem setResult_phase (v : Word) : (s.setResult v).phase = s.phase := rfl
@[simp] theorem setResult_setup (v : Word) : (s.setResult v).setup = s.setup := rfl
@[simp] theorem setResult_inputs (v : Word) : (s.setResult v).inputs = s.inputs := rfl
@[simp] theorem setResult_readData (v : Word) : (s.setResult v).readData = s.readData := rfl
@[simp] theorem setResult_draws (v : Word) : (s.setResult v).draws = s.draws := rfl
@[simp] theorem setResult_report (v : Word) : (s.setResult v).report = s.report := rfl
@[simp] theorem setResult_params (v : Word) : (s.setResult v).params = s.params := rfl
@[simp] theorem setResult_elem (v : Word) (q : Reg) : (s.setResult v).elem q = s.elem q := rfl

@[simp] theorem stage_regs (a b : Element) : (s.stage a b).regs = s.regs := rfl
@[simp] theorem stage_d0 (a b : Element) : (s.stage a b).d0 = a := rfl
@[simp] theorem stage_d1 (a b : Element) : (s.stage a b).d1 = b := rfl
@[simp] theorem stage_d2 (a b : Element) : (s.stage a b).d2 = s.d2 := rfl
@[simp] theorem stage_done (a b : Element) : (s.stage a b).done = s.done := rfl
@[simp] theorem stage_err (a b : Element) : (s.stage a b).err = s.err := rfl
@[simp] theorem stage_overrun (a b : Element) : (s.stage a b).overrun = s.overrun := rfl
@[simp] theorem stage_errCode (a b : Element) : (s.stage a b).errCode = s.errCode := rfl
@[simp] theorem stage_ie (a b : Element) : (s.stage a b).ie = s.ie := rfl
@[simp] theorem stage_cmd (a b : Element) : (s.stage a b).cmd = s.cmd := rfl
@[simp] theorem stage_scalar (a b : Element) : (s.stage a b).scalar = s.scalar := rfl
@[simp] theorem stage_result (a b : Element) : (s.stage a b).result = s.result := rfl
@[simp] theorem stage_cmdCount (a b : Element) : (s.stage a b).cmdCount = s.cmdCount := rfl
@[simp] theorem stage_pbuf (a b : Element) : (s.stage a b).pbuf = s.pbuf := rfl
@[simp] theorem stage_pbufLen (a b : Element) : (s.stage a b).pbufLen = s.pbufLen := rfl
@[simp] theorem stage_phase (a b : Element) : (s.stage a b).phase = s.phase := rfl
@[simp] theorem stage_setup (a b : Element) : (s.stage a b).setup = s.setup := rfl
@[simp] theorem stage_inputs (a b : Element) : (s.stage a b).inputs = s.inputs := rfl
@[simp] theorem stage_readData (a b : Element) : (s.stage a b).readData = s.readData := rfl
@[simp] theorem stage_draws (a b : Element) : (s.stage a b).draws = s.draws := rfl
@[simp] theorem stage_report (a b : Element) : (s.stage a b).report = s.report := rfl
@[simp] theorem stage_params (a b : Element) : (s.stage a b).params = s.params := rfl
@[simp] theorem stage_elem (a b : Element) (q : Reg) : (s.stage a b).elem q = s.elem q := rfl

@[simp] theorem scrubScratch_regs : (s.scrubScratch).regs = s.regs := rfl
@[simp] theorem scrubScratch_d0 : (s.scrubScratch).d0 = s.params.scrubbed := rfl
@[simp] theorem scrubScratch_d1 : (s.scrubScratch).d1 = s.params.scrubbed := rfl
@[simp] theorem scrubScratch_d2 : (s.scrubScratch).d2 = s.params.scrubbed := rfl
@[simp] theorem scrubScratch_done : (s.scrubScratch).done = s.done := rfl
@[simp] theorem scrubScratch_err : (s.scrubScratch).err = s.err := rfl
@[simp] theorem scrubScratch_overrun : (s.scrubScratch).overrun = s.overrun := rfl
@[simp] theorem scrubScratch_errCode : (s.scrubScratch).errCode = s.errCode := rfl
@[simp] theorem scrubScratch_ie : (s.scrubScratch).ie = s.ie := rfl
@[simp] theorem scrubScratch_cmd : (s.scrubScratch).cmd = s.cmd := rfl
@[simp] theorem scrubScratch_scalar : (s.scrubScratch).scalar = s.scalar := rfl
@[simp] theorem scrubScratch_result : (s.scrubScratch).result = s.result := rfl
@[simp] theorem scrubScratch_cmdCount : (s.scrubScratch).cmdCount = s.cmdCount := rfl
@[simp] theorem scrubScratch_pbuf : (s.scrubScratch).pbuf = s.pbuf := rfl
@[simp] theorem scrubScratch_pbufLen : (s.scrubScratch).pbufLen = s.pbufLen := rfl
@[simp] theorem scrubScratch_phase : (s.scrubScratch).phase = s.phase := rfl
@[simp] theorem scrubScratch_setup : (s.scrubScratch).setup = s.setup := rfl
@[simp] theorem scrubScratch_inputs : (s.scrubScratch).inputs = s.inputs := rfl
@[simp] theorem scrubScratch_readData : (s.scrubScratch).readData = s.readData := rfl
@[simp] theorem scrubScratch_draws : (s.scrubScratch).draws = s.draws := rfl
@[simp] theorem scrubScratch_report : (s.scrubScratch).report = s.report := rfl
@[simp] theorem scrubScratch_params : (s.scrubScratch).params = s.params := rfl
@[simp] theorem scrubScratch_elem (q : Reg) : (s.scrubScratch).elem q = s.elem q := rfl

@[simp] theorem writeLoose_d0 (rd : Reg) (V : Int) : (s.writeLoose rd V).d0 = s.d0 := rfl
@[simp] theorem writeLoose_d1 (rd : Reg) (V : Int) : (s.writeLoose rd V).d1 = s.d1 := rfl
@[simp] theorem writeLoose_d2 (rd : Reg) (V : Int) : (s.writeLoose rd V).d2 = s.d2 := rfl
@[simp] theorem writeLoose_done (rd : Reg) (V : Int) : (s.writeLoose rd V).done = s.done := rfl
@[simp] theorem writeLoose_err (rd : Reg) (V : Int) : (s.writeLoose rd V).err = s.err := rfl
@[simp] theorem writeLoose_overrun (rd : Reg) (V : Int) : (s.writeLoose rd V).overrun = s.overrun := rfl
@[simp] theorem writeLoose_errCode (rd : Reg) (V : Int) : (s.writeLoose rd V).errCode = s.errCode := rfl
@[simp] theorem writeLoose_ie (rd : Reg) (V : Int) : (s.writeLoose rd V).ie = s.ie := rfl
@[simp] theorem writeLoose_cmd (rd : Reg) (V : Int) : (s.writeLoose rd V).cmd = s.cmd := rfl
@[simp] theorem writeLoose_scalar (rd : Reg) (V : Int) : (s.writeLoose rd V).scalar = s.scalar := rfl
@[simp] theorem writeLoose_result (rd : Reg) (V : Int) : (s.writeLoose rd V).result = s.result := rfl
@[simp] theorem writeLoose_cmdCount (rd : Reg) (V : Int) : (s.writeLoose rd V).cmdCount = s.cmdCount := rfl
@[simp] theorem writeLoose_pbuf (rd : Reg) (V : Int) : (s.writeLoose rd V).pbuf = s.pbuf := rfl
@[simp] theorem writeLoose_pbufLen (rd : Reg) (V : Int) : (s.writeLoose rd V).pbufLen = s.pbufLen := rfl
@[simp] theorem writeLoose_phase (rd : Reg) (V : Int) : (s.writeLoose rd V).phase = s.phase := rfl
@[simp] theorem writeLoose_setup (rd : Reg) (V : Int) : (s.writeLoose rd V).setup = s.setup := rfl
@[simp] theorem writeLoose_inputs (rd : Reg) (V : Int) : (s.writeLoose rd V).inputs = s.inputs := rfl
@[simp] theorem writeLoose_readData (rd : Reg) (V : Int) : (s.writeLoose rd V).readData = s.readData := rfl
@[simp] theorem writeLoose_draws (rd : Reg) (V : Int) :
    (s.writeLoose rd V).draws = if s.setup.looseExact then s.draws else s.draws + 1 := rfl
@[simp] theorem writeLoose_report (rd : Reg) (V : Int) : (s.writeLoose rd V).report = s.report := rfl
@[simp] theorem writeLoose_params (rd : Reg) (V : Int) : (s.writeLoose rd V).params = s.params := rfl

@[simp] theorem reportUB_regs (u : UB) : (s.reportUB u).regs = s.regs := rfl
@[simp] theorem reportUB_d0 (u : UB) : (s.reportUB u).d0 = s.d0 := rfl
@[simp] theorem reportUB_d1 (u : UB) : (s.reportUB u).d1 = s.d1 := rfl
@[simp] theorem reportUB_d2 (u : UB) : (s.reportUB u).d2 = s.d2 := rfl
@[simp] theorem reportUB_done (u : UB) : (s.reportUB u).done = s.done := rfl
@[simp] theorem reportUB_err (u : UB) : (s.reportUB u).err = s.err := rfl
@[simp] theorem reportUB_overrun (u : UB) : (s.reportUB u).overrun = s.overrun := rfl
@[simp] theorem reportUB_errCode (u : UB) : (s.reportUB u).errCode = s.errCode := rfl
@[simp] theorem reportUB_ie (u : UB) : (s.reportUB u).ie = s.ie := rfl
@[simp] theorem reportUB_cmd (u : UB) : (s.reportUB u).cmd = s.cmd := rfl
@[simp] theorem reportUB_scalar (u : UB) : (s.reportUB u).scalar = s.scalar := rfl
@[simp] theorem reportUB_result (u : UB) : (s.reportUB u).result = s.result := rfl
@[simp] theorem reportUB_cmdCount (u : UB) : (s.reportUB u).cmdCount = s.cmdCount := rfl
@[simp] theorem reportUB_pbuf (u : UB) : (s.reportUB u).pbuf = s.pbuf := rfl
@[simp] theorem reportUB_pbufLen (u : UB) : (s.reportUB u).pbufLen = s.pbufLen := rfl
@[simp] theorem reportUB_phase (u : UB) : (s.reportUB u).phase = s.phase := rfl
@[simp] theorem reportUB_setup (u : UB) : (s.reportUB u).setup = s.setup := rfl
@[simp] theorem reportUB_inputs (u : UB) : (s.reportUB u).inputs = s.inputs := rfl
@[simp] theorem reportUB_readData (u : UB) : (s.reportUB u).readData = s.readData := rfl
@[simp] theorem reportUB_draws (u : UB) : (s.reportUB u).draws = s.draws := rfl
@[simp] theorem reportUB_report (u : UB) : (s.reportUB u).report = some (s.report.getD u) := rfl
@[simp] theorem reportUB_params (u : UB) : (s.reportUB u).params = s.params := rfl
@[simp] theorem reportUB_elem (u : UB) (q : Reg) : (s.reportUB u).elem q = s.elem q := rfl

@[simp] theorem ubElem_d0 (u : UB) (rd : Reg) : (s.ubElem u rd).d0 = s.d0 := rfl
@[simp] theorem ubElem_d1 (u : UB) (rd : Reg) : (s.ubElem u rd).d1 = s.d1 := rfl
@[simp] theorem ubElem_d2 (u : UB) (rd : Reg) : (s.ubElem u rd).d2 = s.d2 := rfl
@[simp] theorem ubElem_done (u : UB) (rd : Reg) : (s.ubElem u rd).done = s.done := rfl
@[simp] theorem ubElem_err (u : UB) (rd : Reg) : (s.ubElem u rd).err = s.err := rfl
@[simp] theorem ubElem_overrun (u : UB) (rd : Reg) : (s.ubElem u rd).overrun = s.overrun := rfl
@[simp] theorem ubElem_errCode (u : UB) (rd : Reg) : (s.ubElem u rd).errCode = s.errCode := rfl
@[simp] theorem ubElem_ie (u : UB) (rd : Reg) : (s.ubElem u rd).ie = s.ie := rfl
@[simp] theorem ubElem_cmd (u : UB) (rd : Reg) : (s.ubElem u rd).cmd = s.cmd := rfl
@[simp] theorem ubElem_scalar (u : UB) (rd : Reg) : (s.ubElem u rd).scalar = s.scalar := rfl
@[simp] theorem ubElem_result (u : UB) (rd : Reg) : (s.ubElem u rd).result = s.result := rfl
@[simp] theorem ubElem_cmdCount (u : UB) (rd : Reg) : (s.ubElem u rd).cmdCount = s.cmdCount := rfl
@[simp] theorem ubElem_pbuf (u : UB) (rd : Reg) : (s.ubElem u rd).pbuf = s.pbuf := rfl
@[simp] theorem ubElem_pbufLen (u : UB) (rd : Reg) : (s.ubElem u rd).pbufLen = s.pbufLen := rfl
@[simp] theorem ubElem_phase (u : UB) (rd : Reg) : (s.ubElem u rd).phase = s.phase := rfl
@[simp] theorem ubElem_setup (u : UB) (rd : Reg) : (s.ubElem u rd).setup = s.setup := rfl
@[simp] theorem ubElem_inputs (u : UB) (rd : Reg) : (s.ubElem u rd).inputs = s.inputs := rfl
@[simp] theorem ubElem_readData (u : UB) (rd : Reg) : (s.ubElem u rd).readData = s.readData := rfl
@[simp] theorem ubElem_draws (u : UB) (rd : Reg) : (s.ubElem u rd).draws = s.draws + 1 := rfl
@[simp] theorem ubElem_report (u : UB) (rd : Reg) : (s.ubElem u rd).report = some (s.report.getD u) := rfl
@[simp] theorem ubElem_params (u : UB) (rd : Reg) : (s.ubElem u rd).params = s.params := rfl

@[simp] theorem ubResult_regs (u : UB) : (s.ubResult u).regs = s.regs := rfl
@[simp] theorem ubResult_d0 (u : UB) : (s.ubResult u).d0 = s.d0 := rfl
@[simp] theorem ubResult_d1 (u : UB) : (s.ubResult u).d1 = s.d1 := rfl
@[simp] theorem ubResult_d2 (u : UB) : (s.ubResult u).d2 = s.d2 := rfl
@[simp] theorem ubResult_done (u : UB) : (s.ubResult u).done = s.done := rfl
@[simp] theorem ubResult_err (u : UB) : (s.ubResult u).err = s.err := rfl
@[simp] theorem ubResult_overrun (u : UB) : (s.ubResult u).overrun = s.overrun := rfl
@[simp] theorem ubResult_errCode (u : UB) : (s.ubResult u).errCode = s.errCode := rfl
@[simp] theorem ubResult_ie (u : UB) : (s.ubResult u).ie = s.ie := rfl
@[simp] theorem ubResult_cmd (u : UB) : (s.ubResult u).cmd = s.cmd := rfl
@[simp] theorem ubResult_scalar (u : UB) : (s.ubResult u).scalar = s.scalar := rfl
@[simp] theorem ubResult_result (u : UB) : (s.ubResult u).result = Config.freeResult s.draws := rfl
@[simp] theorem ubResult_cmdCount (u : UB) : (s.ubResult u).cmdCount = s.cmdCount := rfl
@[simp] theorem ubResult_pbuf (u : UB) : (s.ubResult u).pbuf = s.pbuf := rfl
@[simp] theorem ubResult_pbufLen (u : UB) : (s.ubResult u).pbufLen = s.pbufLen := rfl
@[simp] theorem ubResult_phase (u : UB) : (s.ubResult u).phase = s.phase := rfl
@[simp] theorem ubResult_setup (u : UB) : (s.ubResult u).setup = s.setup := rfl
@[simp] theorem ubResult_inputs (u : UB) : (s.ubResult u).inputs = s.inputs := rfl
@[simp] theorem ubResult_readData (u : UB) : (s.ubResult u).readData = s.readData := rfl
@[simp] theorem ubResult_draws (u : UB) : (s.ubResult u).draws = s.draws + 1 := rfl
@[simp] theorem ubResult_report (u : UB) : (s.ubResult u).report = some (s.report.getD u) := rfl
@[simp] theorem ubResult_params (u : UB) : (s.ubResult u).params = s.params := rfl
@[simp] theorem ubResult_elem (u : UB) (q : Reg) : (s.ubResult u).elem q = s.elem q := rfl

@[simp] theorem writeImage_regs (byte : Nat → BitVec 8) : (s.writeImage byte).regs = s.regs := rfl
@[simp] theorem writeImage_d0 (byte : Nat → BitVec 8) : (s.writeImage byte).d0 = s.d0 := rfl
@[simp] theorem writeImage_d1 (byte : Nat → BitVec 8) : (s.writeImage byte).d1 = s.d1 := rfl
@[simp] theorem writeImage_d2 (byte : Nat → BitVec 8) : (s.writeImage byte).d2 = s.d2 := rfl
@[simp] theorem writeImage_done (byte : Nat → BitVec 8) : (s.writeImage byte).done = s.done := rfl
@[simp] theorem writeImage_err (byte : Nat → BitVec 8) : (s.writeImage byte).err = s.err := rfl
@[simp] theorem writeImage_overrun (byte : Nat → BitVec 8) : (s.writeImage byte).overrun = s.overrun := rfl
@[simp] theorem writeImage_errCode (byte : Nat → BitVec 8) : (s.writeImage byte).errCode = s.errCode := rfl
@[simp] theorem writeImage_ie (byte : Nat → BitVec 8) : (s.writeImage byte).ie = s.ie := rfl
@[simp] theorem writeImage_cmd (byte : Nat → BitVec 8) : (s.writeImage byte).cmd = s.cmd := rfl
@[simp] theorem writeImage_scalar (byte : Nat → BitVec 8) : (s.writeImage byte).scalar = s.scalar := rfl
@[simp] theorem writeImage_result (byte : Nat → BitVec 8) : (s.writeImage byte).result = s.result := rfl
@[simp] theorem writeImage_cmdCount (byte : Nat → BitVec 8) : (s.writeImage byte).cmdCount = s.cmdCount := rfl
@[simp] theorem writeImage_pbuf (byte : Nat → BitVec 8) : (s.writeImage byte).pbuf = imageWords s.params byte := rfl
@[simp] theorem writeImage_pbufLen (byte : Nat → BitVec 8) :
    (s.writeImage byte).pbufLen = BitVec.ofNat 16 s.params.packedBytes := rfl
@[simp] theorem writeImage_phase (byte : Nat → BitVec 8) : (s.writeImage byte).phase = s.phase := rfl
@[simp] theorem writeImage_setup (byte : Nat → BitVec 8) : (s.writeImage byte).setup = s.setup := rfl
@[simp] theorem writeImage_inputs (byte : Nat → BitVec 8) : (s.writeImage byte).inputs = s.inputs := rfl
@[simp] theorem writeImage_readData (byte : Nat → BitVec 8) : (s.writeImage byte).readData = s.readData := rfl
@[simp] theorem writeImage_draws (byte : Nat → BitVec 8) : (s.writeImage byte).draws = s.draws := rfl
@[simp] theorem writeImage_report (byte : Nat → BitVec 8) : (s.writeImage byte).report = s.report := rfl
@[simp] theorem writeImage_params (byte : Nat → BitVec 8) : (s.writeImage byte).params = s.params := rfl
@[simp] theorem writeImage_elem (byte : Nat → BitVec 8) (q : Reg) : (s.writeImage byte).elem q = s.elem q := rfl

@[simp] theorem complete_ok_regs : (s.complete .ok).regs = s.regs := rfl
@[simp] theorem complete_ok_d0 : (s.complete .ok).d0 = s.params.scrubbed := rfl
@[simp] theorem complete_ok_d1 : (s.complete .ok).d1 = s.params.scrubbed := rfl
@[simp] theorem complete_ok_d2 : (s.complete .ok).d2 = s.params.scrubbed := rfl
@[simp] theorem complete_ok_done : (s.complete .ok).done = true := rfl
@[simp] theorem complete_ok_err : (s.complete .ok).err = s.err := rfl
@[simp] theorem complete_ok_overrun : (s.complete .ok).overrun = s.overrun := rfl
@[simp] theorem complete_ok_errCode : (s.complete .ok).errCode = s.errCode := rfl
@[simp] theorem complete_ok_ie : (s.complete .ok).ie = s.ie := rfl
@[simp] theorem complete_ok_cmd : (s.complete .ok).cmd = s.cmd := rfl
@[simp] theorem complete_ok_scalar : (s.complete .ok).scalar = s.scalar := rfl
@[simp] theorem complete_ok_result : (s.complete .ok).result = s.result := rfl
@[simp] theorem complete_ok_cmdCount : (s.complete .ok).cmdCount = s.cmdCount + 1 := rfl
@[simp] theorem complete_ok_pbuf : (s.complete .ok).pbuf = s.pbuf := rfl
@[simp] theorem complete_ok_pbufLen : (s.complete .ok).pbufLen = s.pbufLen := rfl
@[simp] theorem complete_ok_phase : (s.complete .ok).phase = .idle := rfl
@[simp] theorem complete_ok_setup : (s.complete .ok).setup = s.setup := rfl
@[simp] theorem complete_ok_inputs : (s.complete .ok).inputs = s.inputs := rfl
@[simp] theorem complete_ok_readData : (s.complete .ok).readData = s.readData := rfl
@[simp] theorem complete_ok_draws : (s.complete .ok).draws = s.draws := rfl
@[simp] theorem complete_ok_report : (s.complete .ok).report = s.report := rfl
@[simp] theorem complete_ok_params : (s.complete .ok).params = s.params := rfl
@[simp] theorem complete_ok_elem (q : Reg) : (s.complete .ok).elem q = s.elem q := rfl

@[simp] theorem complete_error_regs (e : ErrCode) : (s.complete (.error e)).regs = s.regs := rfl
@[simp] theorem complete_error_d0 (e : ErrCode) : (s.complete (.error e)).d0 = s.params.scrubbed := rfl
@[simp] theorem complete_error_d1 (e : ErrCode) : (s.complete (.error e)).d1 = s.params.scrubbed := rfl
@[simp] theorem complete_error_d2 (e : ErrCode) : (s.complete (.error e)).d2 = s.params.scrubbed := rfl
@[simp] theorem complete_error_done (e : ErrCode) : (s.complete (.error e)).done = true := rfl
@[simp] theorem complete_error_err (e : ErrCode) : (s.complete (.error e)).err = true := rfl
@[simp] theorem complete_error_overrun (e : ErrCode) : (s.complete (.error e)).overrun = s.overrun := rfl
@[simp] theorem complete_error_errCode (e : ErrCode) : (s.complete (.error e)).errCode = e := rfl
@[simp] theorem complete_error_ie (e : ErrCode) : (s.complete (.error e)).ie = s.ie := rfl
@[simp] theorem complete_error_cmd (e : ErrCode) : (s.complete (.error e)).cmd = s.cmd := rfl
@[simp] theorem complete_error_scalar (e : ErrCode) : (s.complete (.error e)).scalar = s.scalar := rfl
@[simp] theorem complete_error_result (e : ErrCode) : (s.complete (.error e)).result = s.result := rfl
@[simp] theorem complete_error_cmdCount (e : ErrCode) : (s.complete (.error e)).cmdCount = s.cmdCount + 1 := rfl
@[simp] theorem complete_error_pbuf (e : ErrCode) : (s.complete (.error e)).pbuf = s.pbuf := rfl
@[simp] theorem complete_error_pbufLen (e : ErrCode) : (s.complete (.error e)).pbufLen = s.pbufLen := rfl
@[simp] theorem complete_error_phase (e : ErrCode) : (s.complete (.error e)).phase = .idle := rfl
@[simp] theorem complete_error_setup (e : ErrCode) : (s.complete (.error e)).setup = s.setup := rfl
@[simp] theorem complete_error_inputs (e : ErrCode) : (s.complete (.error e)).inputs = s.inputs := rfl
@[simp] theorem complete_error_readData (e : ErrCode) : (s.complete (.error e)).readData = s.readData := rfl
@[simp] theorem complete_error_draws (e : ErrCode) : (s.complete (.error e)).draws = s.draws := rfl
@[simp] theorem complete_error_report (e : ErrCode) : (s.complete (.error e)).report = s.report := rfl
@[simp] theorem complete_error_params (e : ErrCode) : (s.complete (.error e)).params = s.params := rfl
@[simp] theorem complete_error_elem (e : ErrCode) (q : Reg) : (s.complete (.error e)).elem q = s.elem q := rfl

@[simp] theorem setOverrun_regs : (s.setOverrun).regs = s.regs := rfl
@[simp] theorem setOverrun_d0 : (s.setOverrun).d0 = s.d0 := rfl
@[simp] theorem setOverrun_d1 : (s.setOverrun).d1 = s.d1 := rfl
@[simp] theorem setOverrun_d2 : (s.setOverrun).d2 = s.d2 := rfl
@[simp] theorem setOverrun_done : (s.setOverrun).done = s.done := rfl
@[simp] theorem setOverrun_err : (s.setOverrun).err = s.err := rfl
@[simp] theorem setOverrun_overrun : (s.setOverrun).overrun = true := rfl
@[simp] theorem setOverrun_errCode : (s.setOverrun).errCode = s.errCode := rfl
@[simp] theorem setOverrun_ie : (s.setOverrun).ie = s.ie := rfl
@[simp] theorem setOverrun_cmd : (s.setOverrun).cmd = s.cmd := rfl
@[simp] theorem setOverrun_scalar : (s.setOverrun).scalar = s.scalar := rfl
@[simp] theorem setOverrun_result : (s.setOverrun).result = s.result := rfl
@[simp] theorem setOverrun_cmdCount : (s.setOverrun).cmdCount = s.cmdCount := rfl
@[simp] theorem setOverrun_pbuf : (s.setOverrun).pbuf = s.pbuf := rfl
@[simp] theorem setOverrun_pbufLen : (s.setOverrun).pbufLen = s.pbufLen := rfl
@[simp] theorem setOverrun_phase : (s.setOverrun).phase = s.phase := rfl
@[simp] theorem setOverrun_setup : (s.setOverrun).setup = s.setup := rfl
@[simp] theorem setOverrun_inputs : (s.setOverrun).inputs = s.inputs := rfl
@[simp] theorem setOverrun_readData : (s.setOverrun).readData = s.readData := rfl
@[simp] theorem setOverrun_draws : (s.setOverrun).draws = s.draws := rfl
@[simp] theorem setOverrun_report : (s.setOverrun).report = s.report := rfl
@[simp] theorem setOverrun_params : (s.setOverrun).params = s.params := rfl
@[simp] theorem setOverrun_elem (q : Reg) : (s.setOverrun).elem q = s.elem q := rfl

@[simp] theorem writeStatus_regs (v : Word) : (s.writeStatus v).regs = s.regs := rfl
@[simp] theorem writeStatus_d0 (v : Word) : (s.writeStatus v).d0 = s.d0 := rfl
@[simp] theorem writeStatus_d1 (v : Word) : (s.writeStatus v).d1 = s.d1 := rfl
@[simp] theorem writeStatus_d2 (v : Word) : (s.writeStatus v).d2 = s.d2 := rfl
@[simp] theorem writeStatus_done (v : Word) : (s.writeStatus v).done = (s.done && !v.getLsbD 1) := rfl
@[simp] theorem writeStatus_err (v : Word) : (s.writeStatus v).err = (s.err && !v.getLsbD 2) := rfl
@[simp] theorem writeStatus_overrun (v : Word) : (s.writeStatus v).overrun = (s.overrun && !v.getLsbD 3) := rfl
@[simp] theorem writeStatus_errCode (v : Word) :
    (s.writeStatus v).errCode = if v.getLsbD 2 then .none else s.errCode := rfl
@[simp] theorem writeStatus_ie (v : Word) : (s.writeStatus v).ie = s.ie := rfl
@[simp] theorem writeStatus_cmd (v : Word) : (s.writeStatus v).cmd = s.cmd := rfl
@[simp] theorem writeStatus_scalar (v : Word) : (s.writeStatus v).scalar = s.scalar := rfl
@[simp] theorem writeStatus_result (v : Word) : (s.writeStatus v).result = s.result := rfl
@[simp] theorem writeStatus_cmdCount (v : Word) : (s.writeStatus v).cmdCount = s.cmdCount := rfl
@[simp] theorem writeStatus_pbuf (v : Word) : (s.writeStatus v).pbuf = s.pbuf := rfl
@[simp] theorem writeStatus_pbufLen (v : Word) : (s.writeStatus v).pbufLen = s.pbufLen := rfl
@[simp] theorem writeStatus_phase (v : Word) : (s.writeStatus v).phase = s.phase := rfl
@[simp] theorem writeStatus_setup (v : Word) : (s.writeStatus v).setup = s.setup := rfl
@[simp] theorem writeStatus_inputs (v : Word) : (s.writeStatus v).inputs = s.inputs := rfl
@[simp] theorem writeStatus_readData (v : Word) : (s.writeStatus v).readData = s.readData := rfl
@[simp] theorem writeStatus_draws (v : Word) : (s.writeStatus v).draws = s.draws := rfl
@[simp] theorem writeStatus_report (v : Word) : (s.writeStatus v).report = s.report := rfl
@[simp] theorem writeStatus_params (v : Word) : (s.writeStatus v).params = s.params := rfl
@[simp] theorem writeStatus_elem (v : Word) (q : Reg) : (s.writeStatus v).elem q = s.elem q := rfl

@[simp] theorem accept_regs (w : CmdWord) : (s.accept w).regs = s.regs := rfl
@[simp] theorem accept_d0 (w : CmdWord) : (s.accept w).d0 = s.d0 := rfl
@[simp] theorem accept_d1 (w : CmdWord) : (s.accept w).d1 = s.d1 := rfl
@[simp] theorem accept_d2 (w : CmdWord) : (s.accept w).d2 = s.d2 := rfl
@[simp] theorem accept_done (w : CmdWord) : (s.accept w).done = s.done := rfl
@[simp] theorem accept_err (w : CmdWord) : (s.accept w).err = s.err := rfl
@[simp] theorem accept_overrun (w : CmdWord) : (s.accept w).overrun = s.overrun := rfl
@[simp] theorem accept_errCode (w : CmdWord) : (s.accept w).errCode = s.errCode := rfl
@[simp] theorem accept_ie (w : CmdWord) : (s.accept w).ie = s.ie := rfl
@[simp] theorem accept_cmd (w : CmdWord) : (s.accept w).cmd = w := rfl
@[simp] theorem accept_scalar (w : CmdWord) : (s.accept w).scalar = s.scalar := rfl
@[simp] theorem accept_result (w : CmdWord) : (s.accept w).result = s.result := rfl
@[simp] theorem accept_cmdCount (w : CmdWord) : (s.accept w).cmdCount = s.cmdCount := rfl
@[simp] theorem accept_pbuf (w : CmdWord) : (s.accept w).pbuf = s.pbuf := rfl
@[simp] theorem accept_pbufLen (w : CmdWord) : (s.accept w).pbufLen = s.pbufLen := rfl
@[simp] theorem accept_phase (w : CmdWord) : (s.accept w).phase = .busy w (s.latency w) := rfl
@[simp] theorem accept_setup (w : CmdWord) : (s.accept w).setup = s.setup := rfl
@[simp] theorem accept_inputs (w : CmdWord) : (s.accept w).inputs = s.inputs := rfl
@[simp] theorem accept_readData (w : CmdWord) : (s.accept w).readData = s.readData := rfl
@[simp] theorem accept_draws (w : CmdWord) : (s.accept w).draws = s.draws := rfl
@[simp] theorem accept_report (w : CmdWord) : (s.accept w).report = s.report := rfl
@[simp] theorem accept_params (w : CmdWord) : (s.accept w).params = s.params := rfl
@[simp] theorem accept_elem (w : CmdWord) (q : Reg) : (s.accept w).elem q = s.elem q := rfl

@[simp] theorem afterRead_regs (off : Nat) : (s.afterRead off).regs = s.regs := rfl
@[simp] theorem afterRead_d0 (off : Nat) : (s.afterRead off).d0 = s.d0 := rfl
@[simp] theorem afterRead_d1 (off : Nat) : (s.afterRead off).d1 = s.d1 := rfl
@[simp] theorem afterRead_d2 (off : Nat) : (s.afterRead off).d2 = s.d2 := rfl
@[simp] theorem afterRead_done (off : Nat) : (s.afterRead off).done = s.done := rfl
@[simp] theorem afterRead_err (off : Nat) : (s.afterRead off).err = s.err := rfl
@[simp] theorem afterRead_overrun (off : Nat) : (s.afterRead off).overrun = s.overrun := rfl
@[simp] theorem afterRead_errCode (off : Nat) : (s.afterRead off).errCode = s.errCode := rfl
@[simp] theorem afterRead_ie (off : Nat) : (s.afterRead off).ie = s.ie := rfl
@[simp] theorem afterRead_cmd (off : Nat) : (s.afterRead off).cmd = s.cmd := rfl
@[simp] theorem afterRead_scalar (off : Nat) : (s.afterRead off).scalar = s.scalar := rfl
@[simp] theorem afterRead_result (off : Nat) : (s.afterRead off).result = s.result := rfl
@[simp] theorem afterRead_cmdCount (off : Nat) : (s.afterRead off).cmdCount = s.cmdCount := rfl
@[simp] theorem afterRead_pbuf (off : Nat) : (s.afterRead off).pbuf = s.pbuf := rfl
@[simp] theorem afterRead_pbufLen (off : Nat) : (s.afterRead off).pbufLen = s.pbufLen := rfl
@[simp] theorem afterRead_phase (off : Nat) : (s.afterRead off).phase = s.phase := rfl
@[simp] theorem afterRead_setup (off : Nat) : (s.afterRead off).setup = s.setup := rfl
@[simp] theorem afterRead_inputs (off : Nat) : (s.afterRead off).inputs = s.inputs := rfl
@[simp] theorem afterRead_readData (off : Nat) : (s.afterRead off).readData = s.readData := rfl
@[simp] theorem afterRead_draws (off : Nat) :
    (s.afterRead off).draws = if s.isBusy && (regAt s.params off).freeWhileBusy then s.draws + 1 else s.draws := rfl
@[simp] theorem afterRead_report (off : Nat) : (s.afterRead off).report = s.report := rfl
@[simp] theorem afterRead_params (off : Nat) : (s.afterRead off).params = s.params := rfl
@[simp] theorem afterRead_elem (off : Nat) (q : Reg) : (s.afterRead off).elem q = s.elem q := rfl

@[simp] theorem resetBlock_regs : (s.resetBlock).regs = Vector.replicate 16 s.params.scrubbed := rfl
@[simp] theorem resetBlock_d0 : (s.resetBlock).d0 = s.params.scrubbed := rfl
@[simp] theorem resetBlock_d1 : (s.resetBlock).d1 = s.params.scrubbed := rfl
@[simp] theorem resetBlock_d2 : (s.resetBlock).d2 = s.params.scrubbed := rfl
@[simp] theorem resetBlock_done : (s.resetBlock).done = false := rfl
@[simp] theorem resetBlock_err : (s.resetBlock).err = false := rfl
@[simp] theorem resetBlock_overrun : (s.resetBlock).overrun = false := rfl
@[simp] theorem resetBlock_errCode : (s.resetBlock).errCode = .none := rfl
@[simp] theorem resetBlock_ie : (s.resetBlock).ie = false := rfl
@[simp] theorem resetBlock_cmd : (s.resetBlock).cmd = 0#32 := rfl
@[simp] theorem resetBlock_scalar : (s.resetBlock).scalar = 0#64 := rfl
@[simp] theorem resetBlock_result : (s.resetBlock).result = 0#64 := rfl
@[simp] theorem resetBlock_cmdCount : (s.resetBlock).cmdCount = 0#64 := rfl
@[simp] theorem resetBlock_pbuf : (s.resetBlock).pbuf = List.replicate s.params.pbufWords 0#64 := rfl
@[simp] theorem resetBlock_pbufLen : (s.resetBlock).pbufLen = 0#16 := rfl
@[simp] theorem resetBlock_phase : (s.resetBlock).phase = .idle := rfl
@[simp] theorem resetBlock_setup : (s.resetBlock).setup = s.setup := rfl
@[simp] theorem resetBlock_inputs : (s.resetBlock).inputs = s.inputs := rfl
@[simp] theorem resetBlock_readData : (s.resetBlock).readData = none := rfl
@[simp] theorem resetBlock_draws : (s.resetBlock).draws = s.draws := rfl
@[simp] theorem resetBlock_report : (s.resetBlock).report = none := rfl
@[simp] theorem resetBlock_params : (s.resetBlock).params = s.params := rfl

@[simp] theorem setElem_elem_same (r : Reg) (L : Element) : (s.setElem r L).elem r = L := by
  simp [setElem, elem, Vector.get_eq_getElem]

theorem setElem_elem (r q : Reg) (L : Element) : (s.setElem r L).elem q = if r = q then L else s.elem q := by
  by_cases h : r = q
  · rw [if_pos h, h]; exact setElem_elem_same ..
  · have hne : r.toNat ≠ q.toFin.val := fun e => h (BitVec.eq_of_toNat_eq e)
    rw [if_neg h, elem, setElem, Vector.get_eq_getElem, Vector.getElem_set_ne _ _ hne]
    rfl

theorem setElem_elem_ne {r q : Reg} (L : Element) (h : r ≠ q) : (s.setElem r L).elem q = s.elem q := by
  rw [setElem_elem, if_neg h]

@[simp] theorem writeLoose_elem_same (rd : Reg) (V : Int) :
    (s.writeLoose rd V).elem rd = chain s.params (s.looseValue V) := setElem_elem_same ..

theorem writeLoose_elem_ne {rd q : Reg} (V : Int) (h : rd ≠ q) : (s.writeLoose rd V).elem q = s.elem q :=
  setElem_elem_ne s _ h

@[simp] theorem ubElem_elem_same (u : UB) (rd : Reg) : (s.ubElem u rd).elem rd = s.freeElement :=
  setElem_elem_same ..

theorem ubElem_elem_ne {rd q : Reg} (u : UB) (h : rd ≠ q) : (s.ubElem u rd).elem q = s.elem q :=
  setElem_elem_ne s _ h

@[simp] theorem resetOf_elem (u : Setup) (ins : List HostOp) (d : Nat) (q : Reg) :
    (resetOf u ins d).elem q = u.params.scrubbed := by
  simp [resetOf, elem, Vector.get_eq_getElem]

@[simp] theorem resetBlock_elem (q : Reg) : s.resetBlock.elem q = s.params.scrubbed := resetOf_elem ..

/-- A loose result is exact under LOOSE_EXACT (R157). -/
theorem looseValue_exact (V : Int) (h : s.setup.looseExact = true) : s.looseValue V = V := by simp [looseValue, h]

/-- A loose result is congruent to the exact value mod p, and in the WF range where the exact value is (R157). -/
theorem looseValue_spec (V : Int) :
    (s.looseValue V - V) % (s.params.prime : Int) = 0 ∧
      (-(2 : Int) ^ (s.params.n + 2) ≤ V ∧ V < 2 ^ (s.params.n + 2) →
        -(2 : Int) ^ (s.params.n + 2) ≤ s.looseValue V ∧ s.looseValue V < 2 ^ (s.params.n + 2)) := by
  unfold looseValue
  dsimp only
  split
  · simp
  · split
    · next h => exact ⟨by rw [add_sub_cancel_left, Int.mul_emod_right], fun _ => h⟩
    · simp

end Sys2Proof.Machine.State
end

