-- ==== Sys2Proof/Laws/Ops.lean ====
section
/-! SUPPORT. What each shared operation can do, said once: completion, the operand checks, the scalar checks, the halves of
a cycle, and the step. -/

namespace Sys2Proof.Machine

theorem State.finish_eq (s : State) : s.finish = .next (s.complete .ok) := rfl

theorem State.raise_eq (s : State) (e : ErrCode) : s.raise e = .next (s.complete (.error e)) := rfl

/-- A model-level fault of PACK is its report alone (R148). -/
@[simp] theorem State.ubPack_eq (s : State) : s.ubPack = s.reportUB .operand := rfl

/-- What building an instance can answer: the reset state of a legal set-up (R8, R49). -/
theorem buildInstance_eq_some {u : Setup} {ins : List HostOp} {s : State} :
    buildInstance u ins = some s ↔ u.params.Legal ∧ State.resetOf u ins 0 = s := by
  simp [buildInstance]

/-- A pairwise command: a loose result from WF operands, or an unspecified one (R148). -/
theorem pairwise_cases (s : State) (rd rs1 rs2 : Reg) (V : Int) :
    (s.operandOk rs1 = true ∧ s.operandOk rs2 = true ∧
      pairwise s rd rs1 rs2 V = .next ((s.writeLoose rd V).complete .ok)) ∨
    ((s.operandOk rs1 = false ∨ s.operandOk rs2 = false) ∧
      pairwise s rd rs1 rs2 V = .next ((s.ubElem .operand rd).complete .ok)) := by
  unfold pairwise
  cases h1 : s.operandOk rs1 <;> cases h2 : s.operandOk rs2 <;> simp [State.finish_eq]

/-- A command with one register operand and SCALAR: a loose result, or an unspecified one, UB_OPERAND before UB_SCALAR
(R325). -/
theorem withScalar_cases (s : State) (rd rs1 : Reg) (ok : Bool) (V : Int) :
    (s.operandOk rs1 = true ∧ ok = true ∧ withScalar s rd rs1 ok V = .next ((s.writeLoose rd V).complete .ok)) ∨
    (s.operandOk rs1 = true ∧ ok = false ∧ withScalar s rd rs1 ok V = .next ((s.ubElem .scalar rd).complete .ok)) ∨
    (s.operandOk rs1 = false ∧ withScalar s rd rs1 ok V = .next ((s.ubElem .operand rd).complete .ok)) := by
  unfold withScalar
  cases h1 : s.operandOk rs1 <;> cases ok <;> simp [State.finish_eq]

/-- The value of a loose result as written: congruent to the exact value, and WF where the exact value is in range
(R147, R157). -/
theorem writeLoose_spec {s : State} (hp : s.params.Sound) (rd : Reg) {V : Int}
    (h1 : -(2 : Int) ^ (s.params.n + 2) ≤ V) (h2 : V < 2 ^ (s.params.n + 2)) :
    wf s.params ((s.writeLoose rd V).elem rd) = true ∧
      (val s.params ((s.writeLoose rd V).elem rd) - V) % (s.params.prime : Int) = 0 ∧
      (s.setup.looseExact = true → (s.writeLoose rd V).elem rd = chain s.params V) := by
  obtain ⟨hmod, hrange⟩ := s.looseValue_spec V
  obtain ⟨r1, r2⟩ := hrange ⟨h1, h2⟩
  rw [State.writeLoose_elem_same]
  refine ⟨wf_chain hp r1 r2, by rw [val_chain hp r1 r2]; exact hmod, fun h => by rw [s.looseValue_exact V h]⟩

/-- The host's half of a cycle, by the head of its list. -/
theorem hostHalf_cases (s : State) :
    (s.inputs = [] ∧ s.hostHalf = .next { s with readData := none }) ∨
    (∃ rest, s.inputs = .idle :: rest ∧ s.hostHalf = .next { s with inputs := rest, readData := none }) ∨
    (∃ rest, s.inputs = .wait :: rest ∧ s.isBusy = true ∧ s.hostHalf = .next { s with readData := none }) ∨
    (∃ rest, s.inputs = .wait :: rest ∧ s.isBusy = false ∧
      s.hostHalf = .next { s with inputs := rest, readData := none }) ∨
    (∃ rest, s.inputs = .reset :: rest ∧ s.hostHalf = .next (State.resetOf s.setup rest s.draws)) ∨
    (∃ a rest, s.inputs = .resetWith a :: rest ∧ s.hostHalf = .refused .accessDuringReset) ∨
    (∃ a rest, s.inputs = .access a :: rest ∧
      s.hostHalf = State.access { s with inputs := rest, readData := none } a) := by
  cases hin : s.inputs with
  | nil => simp [State.hostHalf, hin]
  | cons op rest =>
    cases op with
    | wait => cases hb : s.isBusy <;> simp [State.hostHalf, hin, hb]
    | _ => simp [State.hostHalf, hin, State.resetBlock]

/-- The sequencer's half of a cycle, by its phase. -/
theorem sequencerHalf_cases (s : State) :
    (s.phase = .idle ∧ sequencerHalf s = .next s) ∨
    (∃ w left, s.phase = .busy w left ∧ left ≤ 1 ∧ sequencerHalf s = runWord w s) ∨
    (∃ w left, s.phase = .busy w left ∧ 1 < left ∧
      sequencerHalf s = .next { s with phase := .busy w (left - 1) }) := by
  unfold sequencerHalf
  cases h : s.phase with
  | idle => simp
  | busy w left =>
    by_cases hl : left ≤ 1
    · simp [hl]
    · simp [hl, Nat.lt_of_not_le hl]

/-- A step that answers a next state: the host's half does, and then the sequencer's. -/
theorem step_next {s t : State} (h : step s = .next t) : ∃ u, s.hostHalf = .next u ∧ sequencerHalf u = .next t := by
  unfold step at h
  split at h
  · next u hu => exact ⟨u, hu, h⟩
  · cases h
  · cases h

/-- An address of the window resolves to its offset from BASE (R70). -/
theorem offsetOf_base (s : State) {off : Nat} (h : off < windowSize) :
    offsetOf s (s.setup.platform.base + off) = some off := by
  simp [offsetOf, h]

/-- LAT is at least 1 (R368). -/
theorem latency_pos (s : State) (w : CmdWord) : 1 ≤ s.latency w := by
  unfold State.latency
  split <;> omega

/-- A write of PBUF, SCALAR, PBUF_LEN or CMD is dropped while BUSY = 1, and only OVERRUN is set (R324). -/
theorem whenIdle_busy {s : State} (t : State) (h : s.isBusy = true) : s.whenIdle t = s.setOverrun := by
  simp [State.whenIdle, h]

theorem whenIdle_idle {s : State} (t : State) (h : s.isBusy = false) : s.whenIdle t = t := by
  simp [State.whenIdle, h]

/-- Where the strict step stops: a step that records a first model-level fault (R326). -/
theorem strictStep_cases (s : State) :
    (∃ t u, step s = .next t ∧ s.report = none ∧ t.report = some u ∧ Safety.strictStep s = .fault (.ub u)) ∨
    (Safety.strictStep s = step s ∧ ∀ t, step s = .next t → s.report = none → t.report = none) := by
  unfold Safety.strictStep
  cases h : step s with
  | next t => cases hs : s.report <;> cases ht : t.report <;> simp [ht]
  | fault r => simp
  | refused r => simp

end Sys2Proof.Machine
end

