-- ==== Sys2Proof/Laws/PerInstr.lean ====
section
/-! SUPPORT. Facts about each instruction as syntax: its word carries its opcode, and matches it under its format's mask
(30_encoding.md R102, R105). -/

namespace Sys2Proof.Laws.EncodesOpcode

/-- The word of an instruction has its opcode in bits [7:0], and no other bit that its format's mask covers (R102). -/
def Statement (i : Instr) : Prop :=
  opcodeField (encode i) = i.opcode ∧ encode i &&& i.format.mask = i.opcode.setWidth 32

theorem nop : Statement .nop := ⟨opcodeField_layout .., layout_mask_r0 ..⟩

theorem add (rd rs1 rs2 : Reg) : Statement (.add rd rs1 rs2) := ⟨opcodeField_layout .., layout_mask_r3 ..⟩

theorem sub (rd rs1 rs2 : Reg) : Statement (.sub rd rs1 rs2) := ⟨opcodeField_layout .., layout_mask_r3 ..⟩

theorem neg (rd rs1 : Reg) : Statement (.neg rd rs1) := ⟨opcodeField_layout .., layout_mask_r2 ..⟩

theorem adds (rd rs1 : Reg) : Statement (.adds rd rs1) := ⟨opcodeField_layout .., layout_mask_r2 ..⟩

theorem subs (rd rs1 : Reg) : Statement (.subs rd rs1) := ⟨opcodeField_layout .., layout_mask_r2 ..⟩

theorem mul (rd rs1 rs2 : Reg) : Statement (.mul rd rs1 rs2) := ⟨opcodeField_layout .., layout_mask_r3 ..⟩

theorem sqr (rd rs1 : Reg) : Statement (.sqr rd rs1) := ⟨opcodeField_layout .., layout_mask_r2 ..⟩

theorem muls (rd rs1 : Reg) : Statement (.muls rd rs1) := ⟨opcodeField_layout .., layout_mask_r2 ..⟩

theorem reduce (rd rs1 : Reg) : Statement (.reduce rd rs1) := ⟨opcodeField_layout .., layout_mask_r2 ..⟩

theorem norm (rd rs1 : Reg) : Statement (.norm rd rs1) := ⟨opcodeField_layout .., layout_mask_r2 ..⟩

theorem inv (rd rs1 : Reg) : Statement (.inv rd rs1) := ⟨opcodeField_layout .., layout_mask_r2 ..⟩

theorem div (rd rs1 rs2 : Reg) : Statement (.div rd rs1 rs2) := ⟨opcodeField_layout .., layout_mask_r3 ..⟩

theorem sqrt (rd rs1 : Reg) : Statement (.sqrt rd rs1) := ⟨opcodeField_layout .., layout_mask_r2 ..⟩

theorem isqrt (rd rs1 : Reg) : Statement (.isqrt rd rs1) := ⟨opcodeField_layout .., layout_mask_r2 ..⟩

theorem leg (rs1 : Reg) : Statement (.leg rs1) := ⟨opcodeField_layout .., layout_mask_r1s ..⟩

theorem legq (rs1 : Reg) : Statement (.legq rs1) := ⟨opcodeField_layout .., layout_mask_r1s ..⟩

theorem unpack (rd : Reg) : Statement (.unpack rd) := ⟨opcodeField_layout .., layout_mask_r1d ..⟩

theorem pack (rs1 : Reg) : Statement (.pack rs1) := ⟨opcodeField_layout .., layout_mask_r1s ..⟩

theorem mov (rd rs1 : Reg) : Statement (.mov rd rs1) := ⟨opcodeField_layout .., layout_mask_r2 ..⟩

theorem seti (rd : Reg) : Statement (.seti rd) := ⟨opcodeField_layout .., layout_mask_r1d ..⟩

theorem scrub (rd : Reg) : Statement (.scrub rd) := ⟨opcodeField_layout .., layout_mask_r1d ..⟩

theorem cmpeq (rs1 rs2 : Reg) : Statement (.cmpeq rs1 rs2) := ⟨opcodeField_layout .., layout_mask_r2s ..⟩

theorem iszero (rs1 : Reg) : Statement (.iszero rs1) := ⟨opcodeField_layout .., layout_mask_r1s ..⟩

end Sys2Proof.Laws.EncodesOpcode
end

