-- ==== Sys2Proof/Laws/Primality.lean ====
section
/-! SUPPORT. The moduli of the four decided sets are prime (00_scope.md R8(c), R9), by Lucas certificates: for each prime q
of the table, a primitive root and the prime factors of q − 1, which stand earlier in it or are small. -/

namespace Sys2Proof.Primality

open Sys2Proof.Machine

/-- A Lucas certificate: a number, a primitive root mod it, and the prime factors of the number less 1, with repetition. -/
structure Cert where
  q : Nat
  root : Nat
  factors : List Nat

/-- Whether a certificate holds, given numbers known to be prime. -/
def Cert.ok (known : List Nat) (c : Cert) : Bool :=
  decide (1 < c.q) && c.factors.prod == c.q - 1 && c.factors.all known.contains &&
    powMod c.q c.root (c.q - 1) == 1 && c.factors.all fun f => powMod c.q c.root ((c.q - 1) / f) != 1

/-- Whether a table of certificates holds, each against the numbers before it. -/
def checkTable : List Nat → List Cert → Bool
  | _, [] => true
  | known, c :: cs => c.ok known && checkTable (c.q :: known) cs

theorem prime_of_cert {known : List Nat} (hk : ∀ q ∈ known, q.Prime) {c : Cert} (h : c.ok known = true) :
    c.q.Prime := by
  simp only [Cert.ok, Bool.and_eq_true, decide_eq_true_eq, beq_iff_eq, List.all_eq_true, bne_iff_ne,
    List.contains_iff_mem] at h
  obtain ⟨⟨⟨⟨hq, hprod⟩, hmem⟩, hone⟩, hne⟩ := h
  have cast : ∀ e, ((powMod c.q c.root e : Nat) : ZMod c.q) = (c.root : ZMod c.q) ^ e := fun e => by
    rw [powMod_eq _ _ _ hq, ZMod.natCast_mod, Nat.cast_pow]
  refine lucas_primality c.q (c.root : ZMod c.q) (by rw [← cast, hone, Nat.cast_one]) fun f hf hdvd h1 => ?_
  rw [← hprod] at hdvd
  obtain ⟨g, hg, hfg⟩ := (Nat.Prime.prime hf).dvd_prod_iff.mp hdvd
  have heq : f = g := (Nat.prime_dvd_prime_iff_eq hf (hk g (hmem g hg))).mp hfg
  refine hne f (heq ▸ hg) ?_
  rw [← cast] at h1
  have : Fact (1 < c.q) := ⟨hq⟩
  have hval := congrArg ZMod.val h1
  rwa [ZMod.val_natCast_of_lt (powMod_lt _ _ _ hq), ZMod.val_one] at hval

theorem primes_of_table : ∀ (cs : List Cert) {known : List Nat}, (∀ q ∈ known, q.Prime) →
    checkTable known cs = true → ∀ c ∈ cs, c.q.Prime
  | [], _, _, _ => by simp
  | c :: cs, known, hk, h => by
    simp only [checkTable, Bool.and_eq_true] at h
    have hc := prime_of_cert hk h.1
    have hk' : ∀ q ∈ c.q :: known, q.Prime := by simpa using ⟨hc, hk⟩
    simpa using ⟨hc, primes_of_table cs hk' h.2⟩

/-- The small primes that the certificates end in. -/
def smallPrimes : List Nat :=
  [2, 3, 5, 7, 11, 13, 17, 19, 23, 29, 31, 37, 41, 43, 47, 53, 59, 67, 71, 73, 79, 83, 89, 101, 103, 107, 113,
   127, 131, 137, 151, 163, 191, 197, 211, 229, 263, 281, 307, 317, 337, 349, 383, 397, 431, 491, 503, 547,
   659, 677, 829, 839, 929, 983, 1049, 1063, 1283, 1439, 1471, 1583, 1613, 1657, 2011, 2237, 2467, 2531, 2549,
   2909, 3319, 3559, 4177, 5659, 5791, 6599, 8263, 8741, 10211, 10601, 13037, 15413, 15661, 17389, 17683,
   19319, 20249, 23311, 25583, 26711, 27457, 29123, 29311, 38713, 40927, 42433, 46271, 60757, 63863, 68521,
   69697, 73043, 85831]

theorem smallPrimes_prime : ∀ q ∈ smallPrimes, q.Prime := by
  simp only [smallPrimes, List.forall_mem_cons]
  norm_num

/-- Certificates, part 1. -/
def certs1 : List Cert :=
  [⟨6500537, 3, [2, 2, 2, 7, 7, 7, 23, 103]⟩,
   ⟨1541424468855533, 2, [2, 2, 53, 337, 3319, 6500537]⟩,
   ⟨1010536301839123457339, 2, [2, 163, 2011, 1541424468855533]⟩,
   ⟨104123, 2, [2, 79, 659]⟩,
   ⟨5336643803, 2, [2, 7, 7, 4177, 13037]⟩,
   ⟨127727, 5, [2, 63863]⟩,
   ⟨3224909, 2, [2, 2, 19, 42433]⟩,
   ⟨17171153, 3, [2, 2, 2, 2, 53, 20249]⟩,
   ⟨250381879990652588256601, 7, [2, 2, 2, 3, 5, 5, 59, 127727, 3224909, 17171153]⟩,
   ⟨228728139988123081237499256083957678977837, 5, [2, 2, 3, 137, 104123, 5336643803, 250381879990652588256601]⟩,
   ⟨123513195593586463868249598285337146648031981, 2, [2, 2, 3, 3, 3, 5,
    228728139988123081237499256083957678977837]⟩,
   ⟨6739986666787659948666753771754907668409286105635143120275902562187, 2, [2, 3, 3, 3, 1010536301839123457339,
    123513195593586463868249598285337146648031981]⟩,
   ⟨109829, 2, [2, 2, 27457]⟩,
   ⟨5271793, 5, [2, 2, 2, 2, 3, 109829]⟩,
   ⟨575131529129, 3, [2, 2, 2, 13, 1049, 5271793]⟩,
   ⟨19953467139239, 7, [2, 31, 1471, 2549, 85831]⟩,
   ⟨1631235845567066729, 3, [2, 2, 2, 11, 929, 19953467139239]⟩,
   ⟨407723, 2, [2, 7, 29123]⟩,
   ⟨22017043, 3, [2, 3, 3, 3, 407723]⟩,
   ⟨40043063, 5, [2, 43, 281, 1657]⟩,
   ⟨134384519429, 2, [2, 2, 839, 40043063]⟩]

/-- Certificates, part 2. -/
def certs2 : List Cert :=
  [⟨497993, 3, [2, 2, 2, 11, 5659]⟩,
   ⟨995987, 2, [2, 497993]⟩,
   ⟨5975923, 2, [2, 3, 995987]⟩,
   ⟨3788735183, 5, [2, 317, 5975923]⟩,
   ⟨62417726963, 2, [2, 191, 2237, 73043]⟩,
   ⟨14875631, 7, [2, 5, 7, 11, 19319]⟩,
   ⟨923685781, 6, [2, 2, 3, 5, 983, 15661]⟩,
   ⟨156765911253115553, 3, [2, 2, 2, 2, 2, 137, 38713, 923685781]⟩,
   ⟨21561596637519154364530566979, 2, [2, 3, 23, 67, 14875631, 156765911253115553]⟩,
   ⟨140731847223860698993672433903061203299016858671554230293, 2, [2, 2, 3, 3, 11, 69697, 3788735183, 62417726963,
    21561596637519154364530566979]⟩,
   ⟨34275585315876169535825731013955432020686980960977076060073381689104960386232837, 2, [2, 2, 13, 1583,
    22017043, 134384519429, 140731847223860698993672433903061203299016858671554230293]⟩,
   
    ⟨19701003098197239606139520050071806902539869635232723333974146702122860885748605305707133127442457820403313995153221,
    7, [2, 2, 3, 5, 10211, 575131529129, 1631235845567066729,
    34275585315876169535825731013955432020686980960977076060073381689104960386232837]⟩,
   ⟨499433731, 2, [2, 3, 5, 23, 503, 1439]⟩,
   ⟨4994337311, 13, [2, 5, 499433731]⟩,
   ⟨208147, 2, [2, 3, 113, 307]⟩,
   ⟨30406113761, 3, [2, 2, 2, 2, 2, 5, 11, 83, 208147]⟩,
   ⟨720869, 2, [2, 2, 17, 10601]⟩,
   ⟨19505309445451, 3, [2, 3, 3, 3, 3, 3, 5, 5, 17, 131, 720869]⟩,
   ⟨214824846426985860661, 2, [2, 2, 3, 3, 5, 7, 8741, 19505309445451]⟩,
   ⟨6015095699955604098509, 2, [2, 2, 7, 214824846426985860661]⟩,
   ⟨2249645791783395932842367, 5, [2, 11, 17, 6015095699955604098509]⟩]

/-- Certificates, part 3. -/
def certs3 : List Cert :=
  [⟨904340159, 7, [2, 6599, 68521]⟩,
   ⟨39286345187279, 7, [2, 7, 29, 107, 904340159]⟩,
   ⟨2928325597569402103, 3, [2, 3, 3, 41, 101, 39286345187279]⟩,
   ⟨9632869229268961407429404857, 5, [2, 2, 2, 3, 17, 197, 40927, 2928325597569402103]⟩,
   ⟨13943143, 6, [2, 3, 3, 29, 26711]⟩,
   ⟨83287801, 17, [2, 2, 2, 3, 3, 5, 5, 46271]⟩,
   ⟨4593488800753, 7, [2, 2, 2, 2, 3, 3, 383, 83287801]⟩,
   ⟨457345879, 3, [2, 3, 11, 11, 491, 1283]⟩,
   ⟨3041458943669203, 7, [2, 3, 7, 191, 829, 457345879]⟩,
   ⟨12165835774676813, 2, [2, 2, 3041458943669203]⟩,
   ⟨582976264895657809930367649386427562549872079, 13, [2, 3, 71, 101, 17389, 13943143, 4593488800753,
    12165835774676813]⟩,
   
    ⟨42307582002575910332922579714097346549017899709713998034217522897561970639123926132812109468141778230245837569601494931472367,
    5, [2, 431, 25583, 4994337311, 30406113761, 2249645791783395932842367, 9632869229268961407429404857,
    582976264895657809930367649386427562549872079]⟩,
   ⟨99436943, 7, [2, 11, 547, 8263]⟩,
   ⟨27213313, 5, [2, 2, 2, 2, 2, 2, 2, 2, 2, 3, 7, 2531]⟩,
   ⟨72371792138339, 6, [2, 7, 7, 11, 2467, 27213313]⟩,
   ⟨972113, 3, [2, 2, 2, 2, 60757]⟩,
   ⟨235251347, 2, [2, 11, 11, 972113]⟩,
   ⟨188353237, 11, [2, 2, 3, 37, 263, 1613]⟩,
   ⟨1130119423, 3, [2, 3, 188353237]⟩,
   ⟨14720401, 13, [2, 2, 2, 2, 3, 3, 3, 5, 5, 29, 47]⟩,
   ⟨2796876191, 7, [2, 5, 19, 14720401]⟩]

/-- Certificates, part 4. -/
def certs4 : List Cert :=
  [⟨235404890147362182521, 6, [2, 2, 2, 5, 7, 13, 73, 89, 3559, 2796876191]⟩,
   ⟨8877889, 14, [2, 2, 2, 2, 2, 2, 3, 3, 15413]⟩,
   ⟨35511557, 2, [2, 2, 8877889]⟩,
   ⟨879331, 2, [2, 3, 5, 29311]⟩,
   ⟨1553407, 3, [2, 3, 89, 2909]⟩,
   ⟨1435773091665945871, 12, [2, 3, 3, 3, 5, 17, 229, 879331, 1553407]⟩,
   ⟨55516481, 6, [2, 2, 2, 2, 2, 2, 5, 19, 23, 397]⟩,
   ⟨111032963, 2, [2, 55516481]⟩,
   ⟨241601, 3, [2, 2, 2, 2, 2, 2, 5, 5, 151]⟩,
   ⟨4348819, 2, [2, 3, 3, 241601]⟩,
   ⟨365300797, 2, [2, 2, 3, 7, 4348819]⟩,
   ⟨308713, 7, [2, 2, 2, 3, 19, 677]⟩,
   ⟨1234853, 2, [2, 2, 308713]⟩,
   ⟨479216833, 5, [2, 2, 2, 2, 2, 2, 3, 431, 5791]⟩,
   ⟨330659614771, 2, [2, 3, 5, 23, 479216833]⟩,
   ⟨2810390965640035542416767, 5, [2, 3, 71, 107, 151, 1234853, 330659614771]⟩,
   ⟨146621177686829237856559365192161554600556965873, 5, [2, 2, 2, 2, 3, 127, 211, 111032963, 365300797,
    2810390965640035542416767]⟩,
   ⟨1046598874349470040812238544166825597307092300404591085307326405812564486341, 2, [2, 2, 5, 7, 35511557,
    1435773091665945871, 146621177686829237856559365192161554600556965873]⟩,
   
    ⟨471155737497642486266649722911997034941785580633861408520357030668404527002692877857903580176417856629449583072727858932500851,
    2, [2, 5, 5, 349, 17683, 23311, 235251347, 1130119423, 235404890147362182521,
    1046598874349470040812238544166825597307092300404591085307326405812564486341]⟩,
   
    ⟨6703903964971298549787012499102923063739682910296196688861780721860882015036773488400937149083451713845015929093243025426876941405973284973216824503041861,
    2, [2, 2, 3, 5, 31, 1063, 99436943, 72371792138339,
    471155737497642486266649722911997034941785580633861408520357030668404527002692877857903580176417856629449583072727858932500851]⟩]

/-- The whole table. -/
def certs : List Cert := certs1 ++ certs2 ++ certs3 ++ certs4

theorem certs_check : checkTable smallPrimes certs = true := by decide +kernel

theorem certs_prime : ∀ c ∈ certs, c.q.Prime := primes_of_table certs smallPrimes_prime certs_check

/-- The moduli of R9 are prime. -/
theorem decided_prime (p : Params) (h : p ∈ Params.decided) : p.prime.Prime := by
  have hmem : certs.any (fun c => c.q == p.prime) = true := by
    simp only [Params.decided, List.mem_cons, List.not_mem_nil, or_false] at h
    rcases h with rfl | rfl | rfl | rfl <;> decide +kernel
  obtain ⟨c, hc, hq⟩ := List.any_eq_true.mp hmem
  exact (beq_iff_eq.mp hq) ▸ certs_prime c hc

end Sys2Proof.Primality
end

