-- ==== Sys2Proof/Tests/Slice0.lean ====
section
/-! SUPPORT. Tests of the model. Expected values are the spec's: 95_test_vectors.md, and by name the rule where a value is
read from another file. Each runs one command or one cycle on a small state. The theorems are elaborated one after another, since each
kernel check on a thread of its own would run out of threads. -/

set_option Elab.async false

namespace Sys2Proof.Tests

open Sys2Proof.Machine Sys2Proof.Safety

/-! ## States and runs -/

/-- DM of 95_test_vectors.md, 2^58 − 1. -/
def dm : Word := 0x03FFFFFFFFFFFFFF#64

/-- maxWF: [DM, …, DM, 2^(HDB+2) − 1]. -/
def maxWF (p : Params) : Element := List.replicate (p.numLimbs - 1) dm ++ [BitVec.ofNat 64 (2 ^ (p.hdb + 2) - 1)]

/-- minWF: [0, …, 0, −2^(HDB+2)]. -/
def minWF (p : Params) : Element := List.replicate (p.numLimbs - 1) 0#64 ++ [BitVec.ofInt 64 (-(2 ^ (p.hdb + 2)))]

/-- A vector `low`, then `fill` in every other limb but the top one, then `top`. -/
def limbs (p : Params) (low fill top : Word) : Element := low :: List.replicate (p.numLimbs - 2) fill ++ [top]

/-- A small value. -/
def small (p : Params) (low : Word) : Element := limbs p low 0 0

/-- canon(p − k). -/
def minus (p : Params) (k : Int) : Element := canon p (-k)

/-- The state after reset of an instance whose window is at 0x40000000. -/
def start (p : Params) : State :=
  State.resetOf { params := p, latency := Latency.minimal, platform := { base := 0x40000000, irqLine := 5 },
                  looseExact := true } [] 0

/-- e1 and e2 loaded, and SCALAR. -/
def load (p : Params) (a b : Element) (v : Word) : State :=
  { (((start p).setElem 1 a).setElem 2 b) with scalar := v }

/-- The register `r` after a command that completes normally. -/
def elemAfter (r : Reg) (i : Instr) (s : State) : Option Element :=
  match exec i s with
  | .next t => if t.report = s.report ∧ t.err = s.err ∧ t.cmdCount = s.cmdCount + 1 then some (t.elem r) else none
  | _ => none

/-- RESULT after a command that completes normally. -/
def resultAfter (i : Instr) (s : State) : Option Word :=
  match exec i s with
  | .next t => if t.report = s.report ∧ t.err = s.err ∧ t.cmdCount = s.cmdCount + 1 then some t.result else none
  | _ => none

/-- STATUS and the model-level fault after a command. -/
def endsWith (i : Instr) (s : State) : Option (Word × Option UB) :=
  match exec i s with
  | .next t => some (t.statusWord, t.report)
  | _ => none

/-- What one cycle leaves of a state. -/
def observe {α : Type} (f : State → α) (o : Host.Outcome State Fault Refusal) : Option α :=
  match o with
  | .next t => some (f t)
  | _ => none

/-- A host write at an offset. -/
def wr (off : Nat) (v : Word) : HostOp := .access (.write (0x40000000 + off) 8 v)

/-- A host read at an offset. -/
def rd (off : Nat) : HostOp := .access (.read (0x40000000 + off) 8)

/-- A state whose next host action is `op`. -/
def doing (op : HostOp) (s : State) : State := { s with inputs := [op] }

/-! ## WellFormed: each check refuses an ill-formed term -/

/-- R8(a): DB ≠ 2·MDB. -/
theorem test_checkHalves_refuses : Params.checkHalves { Params.f222 with mdb := 28 } = false := by decide
/-- R8(b): n = 0 leaves no value bits in a top limb. -/
theorem test_checkTop_refuses : Params.checkTop { Params.f222 with n := 0 } = false := by decide
/-- R8(d): 2^222 − 119 is 1 (mod 8). -/
theorem test_checkClass_refuses : Params.checkClass { Params.f222 with c := 119 } = false := by decide +kernel
/-- R8(e): 2^221 − 3 needs 28 bytes, three bits more than it has. -/
theorem test_checkPacked_refuses : Params.checkPacked { Params.f222 with n := 221 } = false := by decide
/-- R8(f): two limbs of 58 bits leave 58 below the top one. -/
theorem test_checkScalarRoom_refuses : Params.checkScalarRoom { Params.f222 with n := 100 } = false := by decide
/-- R8(g): c = 2^60 is too large for n = 100. -/
theorem test_checkConstant_refuses : Params.checkConstant { Params.f222 with n := 100, c := 2 ^ 60 } = false := by
  decide +kernel
/-- R71: the LIMB window holds 32 limbs. -/
theorem test_checkMap_refuses : Params.checkMap { Params.f222 with n := 58 * 33 } = false := by decide
/-- R8(h): c = 2^40 overflows the 64-bit data paths. -/
theorem test_widthsFit_refuses : widthsFit { Params.f222 with c := 2 ^ 40 } = false := by decide +kernel
/-- R8(h), R222: with n = 319 and c = 6·10^8, k·c fits 64 bits and t[0] + k·c does not. -/
theorem test_widthsFit_muls_fold :
    (widthTable { Params.f222 with n := 319, c := 600000000 }).mulsFold = 64 ∧
      widthsFit { Params.f222 with n := 319, c := 600000000 } = false := by decide +kernel
/-- R8: what `check` makes of an ill-formed set, and of the four decided ones. -/
theorem test_check : Params.check { Params.f222 with mdb := 28 } = false ∧ Params.decided.all Params.check = true := by
  decide +kernel
/-- R106, R107(d): LEGQ on the p ≡ 3 (mod 4) sets. -/
theorem test_wellFormed_refuses :
    (Instr.legq 2).wellFormed .f222 = false ∧ (Instr.legq 2).wellFormed .f414 = false ∧
      (Instr.legq 2).wellFormed .f383 = true ∧ (Instr.legq 2).wellFormed .f511 = true := by decide +kernel
/-- R107(a) to (c): the illegal words of section 2. -/
theorem test_illegal_words :
    ([0x00000006, 0x000000F0, 0x00132101, 0x00032103, 0x00000100, 0x00000114] : List CmdWord).all
      (fun w => !wordWellFormed w) = true := by decide
/-- R107(d): 0x15 on the four sets. -/
theorem test_illegal_legq :
    (decodeOn .f222 0x00000015, decodeOn .f414 0x00000015) = (none, none) ∧
      decodeOn .f383 0x00000015 = some (.legq 0) ∧ decodeOn .f511 0x00000015 = some (.legq 0) := by decide +kernel

/-! ## Decode: the words of section 2, one for each command -/

theorem test_decode_nop : decode 0x00000000 = some .nop := by decide
theorem test_decode_add : decode 0x00032101 = some (.add 1 2 3) := by decide
theorem test_decode_sub : decode 0x00065402 = some (.sub 4 5 6) := by decide
theorem test_decode_neg : decode 0x00008703 = some (.neg 7 8) := by decide
theorem test_decode_adds : decode 0x0000A904 = some (.adds 9 10) := by decide
theorem test_decode_subs : decode 0x0000CB05 = some (.subs 11 12) := by decide
theorem test_decode_mul : decode 0x000FED08 = some (.mul 13 14 15) := by decide
theorem test_decode_sqr : decode 0x00001109 = some (.sqr 1 1) := by decide
theorem test_decode_muls : decode 0x0000320A = some (.muls 2 3) := by decide
theorem test_decode_reduce : decode 0x0000440C = some (.reduce 4 4) := by decide
theorem test_decode_norm : decode 0x0000650D = some (.norm 5 6) := by decide
theorem test_decode_inv : decode 0x00008710 = some (.inv 7 8) := by decide
theorem test_decode_div : decode 0x000BA911 = some (.div 9 10 11) := by decide
theorem test_decode_sqrt : decode 0x0000DC12 = some (.sqrt 12 13) := by decide
theorem test_decode_isqrt : decode 0x0000FE13 = some (.isqrt 14 15) := by decide
theorem test_decode_leg : decode 0x00001014 = some (.leg 1) := by decide
theorem test_decode_legq : decode 0x00002015 = some (.legq 2) := by decide
theorem test_decode_unpack : decode 0x00000318 = some (.unpack 3) := by decide
theorem test_decode_pack : decode 0x00004019 = some (.pack 4) := by decide
theorem test_decode_mov : decode 0x0000651C = some (.mov 5 6) := by decide
theorem test_decode_seti : decode 0x0000071D = some (.seti 7) := by decide
theorem test_decode_scrub : decode 0x00000F1E = some (.scrub 15) := by decide
theorem test_decode_cmpeq : decode 0x00098020 = some (.cmpeq 8 9) := by decide
theorem test_decode_iszero : decode 0x0000A021 = some (.iszero 10) := by decide

/-! ## Constants (3.6, 1, and R221's table) -/

theorem test_id_words : Params.decided.map Params.idWord =
    [0x301D3A04007500DE, 0x231D3A0700BB017F, 0x081D3A080011019E, 0x2F1D3A0900BB01FF] := by decide +kernel
theorem test_cfg_words : Params.decided.map Params.cfgWord =
    [0x000000010110001C, 0x0000000102100030, 0x0000000101100034, 0x0000000102100040] := by decide +kernel
/-- R249: the correction constants of F383 and F511, as canon's limbs, the first of them written out (R45). -/
theorem test_constI :
    constI .f383 = some (canon .f383
      0x24617df95ff4730f48097cfdb015c9a42247112994425c260e338b12dde4b0a4da30b000cb8732e0d43bd5336eddd6da) ∧
    constI .f511 = some (canon .f511
      0xecda5605ac73ca62d360dd35afc67fcb2d9d627c653c0cdcff56cdde9b115862a4216356433c83fdf4744e63847e9b2a6526b3ddabf1019abca2025f19a0806) ∧
    (constI .f383).map (·.headD 0) = some (0xd43bd5336eddd6da &&& dm) ∧
    constI .f222 = none ∧ constI .f414 = none := by decide +kernel
/-- The table of R221, row by row, for F222, F383, F414 and F511. -/
theorem test_width_table : Params.decided.map widthTable =
    [⟨59, 62, 62, 60, 37, 61, 62, 62, 42, 61, 60, 64, 65⟩, ⟨59, 63, 63, 60, 38, 61, 62, 62, 43, 61, 60, 64, 65⟩,
      ⟨59, 63, 63, 60, 35, 61, 62, 62, 39, 61, 60, 64, 65⟩, ⟨59, 64, 64, 60, 38, 61, 62, 62, 43, 61, 60, 64, 65⟩] := by
  decide +kernel
theorem test_scalar_ranges : Params.f222.addMin = -0x7C00000000000000 ∧ Params.f222.addMax = 0x03FFFFFFFFFFFFFF ∧
    Params.f222.mulMin = -0xE0000000 ∧ Params.f222.mulMax = 0x1FFFFFFF := by decide +kernel

/-! ## Commands (3.1 to 3.5) -/

theorem test_reduce :
    elemAfter 3 (.reduce 3 1) (load .f222 [0, 0, 0, 0x0001000000000000] [] 0) = some (small .f222 0x75) ∧
    elemAfter 3 (.reduce 3 1) (load .f222 (minWF .f222) [] 0) =
      some (limbs .f222 0x03FFFFFFFFFFFE2C dm 0xFFFFFFFFFFFFFFFF) ∧
    elemAfter 1 (.reduce 1 1) (load .f222 (maxWF .f222) [] 0) = some (limbs .f222 0x15E 0 0x0001000000000000) := by
  decide +kernel
theorem test_reduce_sets :
    elemAfter 3 (.reduce 3 1) (load .f383 (maxWF .f383) [] 0) = some (limbs .f383 0x230 0 0x0000000800000000) ∧
    elemAfter 3 (.reduce 3 1) (load .f414 (maxWF .f414) [] 0) = some (limbs .f414 0x32 0 0x0000000000000100) ∧
    elemAfter 3 (.reduce 3 1) (load .f511 (maxWF .f511) [] 0) = some (limbs .f511 0x230 0 0x0000800000000000) := by
  decide +kernel

theorem test_norm :
    elemAfter 3 (.norm 3 1) (load .f222 (limbs .f222 0x03FFFFFFFFFFFF8B dm 0x0000FFFFFFFFFFFF) [] 0) =
      some (small .f222 0) ∧
    elemAfter 3 (.norm 3 1) (load .f222 (limbs .f222 dm dm 0xFFFFFFFFFFFFFFFF) [] 0) =
      some (limbs .f222 0x03FFFFFFFFFFFF8A dm 0x0000FFFFFFFFFFFF) ∧
    elemAfter 1 (.norm 1 1) (load .f222 (minWF .f222) [] 0) =
      some (limbs .f222 0x03FFFFFFFFFFFDB7 dm 0x0000FFFFFFFFFFFF) := by decide +kernel
theorem test_norm_sets :
    elemAfter 3 (.norm 3 1) (load .f383 (maxWF .f383) [] 0) = some (small .f383 0x2EB) ∧
    elemAfter 3 (.norm 3 1) (load .f414 (maxWF .f414) [] 0) = some (small .f414 0x43) ∧
    elemAfter 3 (.norm 3 1) (load .f511 (limbs .f511 dm dm 0xFFFFFFFFFFFFFFFF) [] 0) =
      some (limbs .f511 0x03FFFFFFFFFFFF44 dm 0x00007FFFFFFFFFFF) := by decide +kernel

theorem test_add :
    elemAfter 3 (.add 3 1 2) (load .f222 (minus .f222 1) (small .f222 1) 0) =
      some (limbs .f222 0x03FFFFFFFFFFFF8B dm 0x0000FFFFFFFFFFFF) ∧
    elemAfter 3 (.add 3 1 2) (load .f222 (maxWF .f222) (maxWF .f222) 0) =
      some (limbs .f222 0x2BC 0 0x0002000000000000) ∧
    elemAfter 3 (.add 3 1 2) (load .f222 (minWF .f222) (minWF .f222) 0) =
      some (limbs .f222 0x03FFFFFFFFFFFC58 dm 0xFFFFFFFFFFFFFFFF) ∧
    elemAfter 1 (.add 1 1 1) (load .f222 (small .f222 2) [] 0) = some (small .f222 4) := by decide +kernel
/-- A source all-ones: UB_OPERAND, no flag but DONE. -/
theorem test_add_scrubbed : endsWith (.add 3 1 2) (start .f222) = some (0x02, some .operand) := by decide +kernel

theorem test_sub :
    elemAfter 3 (.sub 3 1 2) (load .f222 (small .f222 0) (small .f222 1) 0) =
      some (limbs .f222 dm dm 0xFFFFFFFFFFFFFFFF) ∧
    elemAfter 1 (.sub 1 1 1) (load .f222 (maxWF .f222) [] 0) = some (small .f222 0) ∧
    elemAfter 2 (.sub 2 1 2) (load .f222 (minWF .f222) (maxWF .f222) 0) =
      some (limbs .f222 0x03FFFFFFFFFFFCCE dm 0xFFFEFFFFFFFFFFFF) := by decide +kernel

theorem test_neg :
    elemAfter 3 (.neg 3 1) (load .f222 (small .f222 1) [] 0) = some (limbs .f222 dm dm 0xFFFFFFFFFFFFFFFF) ∧
    elemAfter 3 (.neg 3 1) (load .f222 (small .f222 0) [] 0) = some (small .f222 0) := by decide +kernel

theorem test_adds :
    elemAfter 3 (.adds 3 1) (load .f222 (small .f222 0) [] 0x8400000000000000) =
      some [0, 0x03FFFFFFFFFFFFE1, dm, 0xFFFFFFFFFFFFFFFF] ∧
    elemAfter 3 (.adds 3 1) (load .f222 (maxWF .f222) [] dm) = some [0x15D, 1, 0, 0x0001000000000000] := by
  decide +kernel
/-- s = addMax + 1: UB_SCALAR. -/
theorem test_adds_range :
    endsWith (.adds 3 1) (load .f222 (small .f222 0) [] 0x0400000000000000) = some (0x02, some .scalar) := by
  decide +kernel

theorem test_subs :
    elemAfter 3 (.subs 3 1) (load .f222 (maxWF .f222) [] 0x8400000000000000) =
      some [0x15E, 0x1F, 0, 0x0001000000000000] ∧
    elemAfter 3 (.subs 3 1) (load .f222 (small .f222 0) [] 1) = some (limbs .f222 dm dm 0xFFFFFFFFFFFFFFFF) ∧
    elemAfter 3 (.subs 3 1) (load .f414 (maxWF .f414) [] 0x8400000000000000) =
      some [0x32, 0x1F, 0, 0, 0, 0, 0, 0x0000000000000100] := by decide +kernel

theorem test_mul :
    elemAfter 3 (.mul 3 1 2) (load .f222 (minus .f222 1) (minus .f222 1) 0) =
      some (limbs .f222 0x03FFFFFFFFFFFF8C dm 0x0000FFFFFFFFFFFF) ∧
    elemAfter 3 (.mul 3 1 2) (load .f222 (maxWF .f222) (maxWF .f222) 0) =
      some (limbs .f222 0x35374 0 0x0001000000000000) ∧
    elemAfter 2 (.mul 2 1 2) (load .f222 (minWF .f222) (maxWF .f222) 0) =
      some (limbs .f222 0x03FFFFFFFFFCAA44 dm 0xFFFFFFFFFFFFFFFF) := by decide +kernel
theorem test_mul_sets :
    elemAfter 3 (.mul 3 1 2) (load .f383 (maxWF .f383) (maxWF .f383) 0) =
      some (limbs .f383 0x882FE 0 0x0000000800000000) ∧
    elemAfter 3 (.mul 3 1 2) (load .f414 (minWF .f414) (minWF .f414) 0) = some (small .f414 0x1210) ∧
    elemAfter 3 (.mul 3 1 2) (load .f511 (minus .f511 1) (minus .f511 1) 0) =
      some (limbs .f511 0x03FFFFFFFFFFFF46 dm 0x00007FFFFFFFFFFF) := by decide +kernel

theorem test_sqr :
    elemAfter 3 (.sqr 3 1) (load .f222 (maxWF .f222) [] 0) = some (limbs .f222 0x35374 0 0x0001000000000000) ∧
    elemAfter 1 (.sqr 1 1) (load .f222 (minWF .f222) [] 0) = some (small .f222 0x35790) := by decide +kernel

theorem test_muls :
    elemAfter 3 (.muls 3 1) (load .f222 (maxWF .f222) [] 0x1FFFFFFF) =
      some (limbs .f222 0x0000003A5FFFFDB8 0 0x0001000000000000) ∧
    elemAfter 3 (.muls 3 1) (load .f222 (maxWF .f222) [] 0xFFFFFFFF20000000) =
      some (limbs .f222 0x03FFFE6760000000 dm 0xFFFFFFFFFFFFFFFF) ∧
    elemAfter 3 (.muls 3 1) (load .f222 (small .f222 3) [] 0xFFFFFFFFFFFFFFFF) =
      some (limbs .f222 0x03FFFFFFFFFFFF88 dm 0x0000FFFFFFFFFFFF) := by decide +kernel
/-- b = mulMax + 1: UB_SCALAR. -/
theorem test_muls_range :
    endsWith (.muls 3 1) (load .f222 (small .f222 3) [] 0x20000000) = some (0x02, some .scalar) := by decide +kernel

theorem test_inv :
    elemAfter 3 (.inv 3 1) (load .f222 (small .f222 4) [] 0) =
      some (limbs .f222 0x03FFFFFFFFFFFFE3 dm 0x00003FFFFFFFFFFF) ∧
    elemAfter 3 (.inv 3 1) (load .f222 (limbs .f222 0x03FFFFFFFFFFFF8B dm 0x0000FFFFFFFFFFFF) [] 0) =
      some (small .f222 0) ∧
    elemAfter 3 (.inv 3 1) (load .f222 (small .f222 5) [] 0) =
      some [0x019999999999996B, 0x0266666666666666, 0x0199999999999999, 0x0000666666666666] := by decide +kernel
theorem test_inv_sets :
    elemAfter 3 (.inv 3 1) (load .f383 (small .f383 2) [] 0) =
      some (limbs .f383 0x03FFFFFFFFFFFFA3 dm 0x00000003FFFFFFFF) ∧
    elemAfter 3 (.inv 3 1) (load .f414 (small .f414 2) [] 0) =
      some (limbs .f414 0x03FFFFFFFFFFFFF8 dm 0x000000000000007F) := by decide +kernel

theorem test_div :
    elemAfter 3 (.div 3 1 2) (load .f222 (small .f222 1) (small .f222 2) 0) =
      some (limbs .f222 0x03FFFFFFFFFFFFC6 dm 0x00007FFFFFFFFFFF) ∧
    elemAfter 2 (.div 2 1 2) (load .f222 (small .f222 6) (small .f222 0) 0) = some (small .f222 0) ∧
    elemAfter 3 (.div 3 1 1) (load .f222 (small .f222 3) [] 0) = some (small .f222 1) := by decide +kernel

theorem test_sqrt :
    elemAfter 3 (.sqrt 3 1) (load .f222 (small .f222 4) [] 0) =
      some (limbs .f222 0x03FFFFFFFFFFFF89 dm 0x0000FFFFFFFFFFFF) ∧
    elemAfter 3 (.sqrt 3 1) (load .f222 (minus .f222 1) [] 0) = some (minus .f222 1) ∧
    elemAfter 3 (.sqrt 3 1) (load .f222 (limbs .f222 0x03FFFFFFFFFFFFFD dm 0xFFFFFFFFFFFFFFFF) [] 0) =
      some [0x02ABA5C9DA5F8341, 0x0247919B0977C90F, 0x026456B0FCC37A7B, 0x0000928D7FEE799E] ∧
    elemAfter 3 (.sqrt 3 1) (load .f414 (small .f414 9) [] 0) = some (small .f414 3) := by decide +kernel
theorem test_sqrt_five_mod_eight :
    elemAfter 3 (.sqrt 3 1) (load .f383 (small .f383 4) [] 0) = some (minus .f383 2) ∧
    elemAfter 3 (.sqrt 3 1) (load .f383 (small .f383 9) [] 0) = some (minus .f383 3) ∧
    elemAfter 3 (.sqrt 3 1) (load .f383 (small .f383 3) [] 0) = some (canon .f383
      0x19a8cef28585deb17e36d2d4f91138c94ab062ab4a1ce2c28a1e5f5519fd8eb23ed470c959696475592a199a564c7afc) ∧
    elemAfter 3 (.sqrt 3 1) (load .f511 (small .f511 4) [] 0) =
      some (limbs .f511 0x03FFFFFFFFFFFF43 dm 0x00007FFFFFFFFFFF) := by decide +kernel

theorem test_isqrt :
    elemAfter 3 (.isqrt 3 1) (load .f222 (small .f222 4) [] 0) =
      some (limbs .f222 0x03FFFFFFFFFFFFC5 dm 0x00007FFFFFFFFFFF) ∧
    elemAfter 3 (.isqrt 3 1) (load .f222 (small .f222 0) [] 0) = some (small .f222 0) ∧
    elemAfter 3 (.isqrt 3 1) (load .f383 (small .f383 3) [] 0) = some (canon .f383
      0x5de2efa62c81f4e5d4bcf0f1a85b12edc39020e3c35ef640d8b4ca71b35484e614f17aedc87876d1c8635dde1cc42882) := by
  decide +kernel

theorem test_leg :
    [0, 1, 2, 3, 4, 5].map (fun x => resultAfter (.leg 1) (load .f222 (small .f222 x) [] 0)) =
      [some 0, some 1, some (-1), some (-1), some 1, some (-1)] ∧
    resultAfter (.leg 1) (load .f222 (minus .f222 1) [] 0) = some (-1) := by decide +kernel
theorem test_leg_sets :
    [2, 3].map (fun x => resultAfter (.leg 1) (load .f383 (small .f383 x) [] 0)) = [some (-1), some 1] ∧
    resultAfter (.leg 1) (load .f383 (minus .f383 1) [] 0) = some 1 ∧
    resultAfter (.leg 1) (load .f414 (small .f414 2) [] 0) = some 1 ∧
    resultAfter (.leg 1) (load .f511 (small .f511 3) [] 0) = some 1 := by decide +kernel

theorem test_legq :
    [0, 1, 2, 3, 4, 9].map (fun x => resultAfter (.legq 1) (load .f383 (small .f383 x) [] 0)) =
      [some 0, some 1, some 2, some (-1), some (-1), some 1] ∧
    resultAfter (.legq 1) (load .f383 (minus .f383 1) [] 0) = some (-1) ∧
    resultAfter (.legq 1) (load .f511 (small .f511 3) [] 0) = some (-1) := by decide +kernel
/-- ILLEGAL on F222. -/
theorem test_legq_illegal : endsWith (.legq 1) (load .f222 (small .f222 1) [] 0) = some (0x16, none) := by
  decide +kernel

/-- A state with the packed image of `words` and PBUF_LEN. -/
def image (words : List Word) (len : BitVec 16) : State := { start .f222 with pbuf := words, pbufLen := len }

theorem test_unpack :
    elemAfter 3 (.unpack 3) (image [0xFFFFFFFFFFFFFF8A, -1, -1, 0x3FFFFFFF] 28) =
      some (limbs .f222 0x03FFFFFFFFFFFF8A dm 0x0000FFFFFFFFFFFF) ∧
    elemAfter 3 (.unpack 3) (image [0, 0, 0, 0xC0000000] 28) = some (limbs .f222 0 0 0x0003000000000000) ∧
    elemAfter 3 (.unpack 3) (image [-1, -1, -1, 0xFFFFFFFF] 28) = some (maxWF .f222) := by decide +kernel
/-- SHAPE: rd all-ones, STATUS 0x26. -/
theorem test_unpack_short :
    endsWith (.unpack 1) { load .f222 (small .f222 1) [] 0 with pbufLen := 27 } = some (0x26, none) ∧
    observe (·.elem 1) (exec (.unpack 1) { load .f222 (small .f222 1) [] 0 with pbufLen := 27 }) =
      some [-1, -1, -1, -1] := by decide +kernel

theorem test_pack :
    observe (fun t => (t.pbuf, t.pbufLen)) (exec (.pack 1) (load .f222 (limbs .f222 dm dm 0xFFFFFFFFFFFFFFFF) [] 0)) =
      some ([0xFFFFFFFFFFFFFF8A, -1, -1, 0x000000003FFFFFFF], 28) ∧
    observe (fun t => (t.pbuf, t.pbufLen)) (exec (.pack 1) (load .f222 (small .f222 0x160) [] 0)) =
      some ([0x160, 0, 0, 0], 28) := by decide +kernel

/-- R148: PACK of a register that is not WF keeps PBUF and PBUF_LEN. -/
theorem test_pack_scrubbed :
    observe (fun t => (t.pbuf, t.pbufLen, t.statusWord, t.report)) (exec (.pack 1) (image [1, 2, 3, 4] 9)) =
      some ([1, 2, 3, 4], 9, 0x02, some .operand) := by decide +kernel

theorem test_mov : elemAfter 3 (.mov 3 1) (load .f222 [-1, -1, -1, -1] [] 0) = some [-1, -1, -1, -1] ∧
    elemAfter 3 (.mov 3 1) (load .f222 (maxWF .f222) [] 0) = some (maxWF .f222) := by decide +kernel

theorem test_seti :
    elemAfter 3 (.seti 3) (load .f222 [] [] (-1)) = some (limbs .f222 dm dm 0xFFFFFFFFFFFFFFFF) ∧
    elemAfter 3 (.seti 3) (load .f222 [] [] 5) = some (small .f222 5) := by decide +kernel

theorem test_scrub : elemAfter 1 (.scrub 1) (load .f222 (maxWF .f222) [] 0) = some [-1, -1, -1, -1] := by
  decide +kernel

theorem test_cmpeq :
    resultAfter (.cmpeq 1 2) (load .f222 (limbs .f222 dm dm 0xFFFFFFFFFFFFFFFF) (minus .f222 1) 0) = some 0 ∧
    resultAfter (.cmpeq 1 2) (load .f222 (small .f222 1) (small .f222 2) 0) = some 1 ∧
    resultAfter (.cmpeq 1 1) (load .f222 (small .f222 3) [] 0) = some 0 := by decide +kernel

theorem test_iszero :
    resultAfter (.iszero 1) (load .f222 (limbs .f222 0x03FFFFFFFFFFFF8B dm 0x0000FFFFFFFFFFFF) [] 0) = some 1 ∧
    resultAfter (.iszero 1) (load .f222 (limbs .f222 0 0 0x0001000000000000) [] 0) = some 0 := by decide +kernel

theorem test_nop : exec .nop (start .f222) = .next { start .f222 with done := true, cmdCount := 1 } := by rfl

/-! ## The host's cycles (3.6, R324, R361, R368) -/

theorem test_status_after_illegal :
    observe (·.statusWord) (step (doing (wr 0x20 6) (start .f222))) = some 0x16 := by decide +kernel
theorem test_clear_err :
    observe (·.statusWord)
        (step (doing (wr 0x18 0x4) { start .f222 with done := true, err := true, errCode := .shape })) = some 0x02 := by
  decide +kernel
theorem test_busy_command_dropped :
    observe (fun t => (t.statusWord, t.cmdCount, t.phase))
        (step (doing (wr 0x20 0) { start .f222 with phase := .busy 0x1E 9 })) = some (0x09, 0, .busy 0x1E 8) := by
  decide +kernel
theorem test_narrow_write_ignored :
    step (doing (.access (.write 0x40000020 4 0)) (start .f222)) = .next (start .f222) := by rfl
theorem test_soft_reset :
    step (doing (wr 0x10 3) (load .f222 (small .f222 1) [] 7)) = .next (start .f222) := by rfl
theorem test_irq_level :
    State.irq { start .f222 with ie := true, done := true } = true ∧
      observe State.irq (step (doing (wr 0x18 2) { start .f222 with ie := true, done := true })) = some false := by
  decide +kernel
theorem test_reads_after_reset :
    [0x00, 0x10, 0x18, 0x40, 0x48, 0x1000, 0x11F8, 0x1200].map
        (fun off => observe (·.readData) (step (doing (rd off) (start .f222)))) =
      [some (some 0x301D3A04007500DE), some (some 0), some (some 0), some (some 0), some (some 0),
        some (some (-1)), some (some (-1)), some (some 0)] := by decide +kernel
theorem test_outside_window :
    step (doing (rd 0x2000) (start .f222)) = .fault .outsideWindow := by rfl
theorem test_access_during_reset :
    step (doing (.resetWith (.read 0x40000000 8)) (start .f222)) = .refused .accessDuringReset := by rfl
/-- The state in which the host is about to write an opcode-table word: the next step completes it. -/
theorem test_withFetchWord :
    observe (fun t => (t.statusWord, t.cmd, t.elem 15)) (step (State.reset.withFetchWord 32 0x00000F1E)) =
      some (0x02, 0x00000F1E, [-1, -1, -1, -1]) := by decide +kernel

/-! ## Witnesses: a state and operands that meet the hypotheses of each obligation that has some, clause by clause, at the
boundaries of their ranges -/

/-- An idle block with WF operands in e0 to e2: 0, the largest and the most negative WF vector; e3 is 0, the rest scrubbed. -/
def loaded (p : Params) (v : Word) : State :=
  { ((((start p).setElem 0 (chain p 0)).setElem 1 (maxWF p)).setElem 2 (minWF p)).setElem 3 (chain p 0) with
    scalar := v }

/-- A block with latencies above 1, about to be given a command and waited for. -/
def slow (w : Word) : State :=
  { loaded .f383 0 with
    setup := { (loaded .f383 0).setup with latency := { extra := [(0x10, 3)], illegalExtra := 2 } }
    inputs := [wr 0x20 w, .wait] }

/-- A block in the last cycle of the command `w`, with SCALAR one above addMax. -/
def ending (w : CmdWord) (ops : List HostOp) : State :=
  { start .f222 with phase := .busy w 1, cmd := w, inputs := ops, scalar := 0x0400000000000000 }

/-- A block with two cycles of a command left, and the host about to do `op`. -/
def running (op : HostOp) : State := { start .f222 with phase := .busy 0x1E 2, cmd := 0x1E, inputs := [op] }

/-- A command about to be issued to an idle block. -/
def issuing (p : Params) (w : Word) : State := doing (wr 0x20 w) (loaded p 0)

theorem exists_next {o : Host.Outcome State Fault Refusal} (h : (observe (fun _ => ()) o).isSome = true) :
    ∃ t, o = .next t := by
  cases o with
  | next t => exact ⟨t, rfl⟩
  | fault _ => cases h
  | refused _ => cases h

theorem witness_DecodedWordIsTheEncoding : decode 0x00032101 = some (.add 1 2 3) := by decide

theorem witness_StepRunsTheDecodedCommand :
    (issuing .f222 0x00032101).phase = .idle ∧
    (issuing .f222 0x00032101).inputs =
      .access (.write ((issuing .f222 0x00032101).setup.platform.base + 0x20) 8 0x00032101) :: [] ∧
    decode ((0x00032101 : Word).setWidth 32) = some (.add 1 2 3) ∧
    (issuing .f222 0x00032101).latency ((0x00032101 : Word).setWidth 32) = 1 := by decide +kernel

theorem witness_IllegalWordCompletesWithTheError : ∀ n ∈ [0x00000006, 0x00132101, 0x00000015],
    (issuing .f222 (BitVec.ofNat 64 n)).phase = .idle ∧
    (issuing .f222 (BitVec.ofNat 64 n)).inputs =
      .access (.write ((issuing .f222 0).setup.platform.base + 0x20) 8 (BitVec.ofNat 64 n)) :: [] ∧
    decodeOn (issuing .f222 0).params ((BitVec.ofNat 64 n).setWidth 32) = none ∧
    (issuing .f222 0).latency ((BitVec.ofNat 64 n).setWidth 32) = 1 := by decide +kernel

/-- A command of LAT 4, an illegal word of LAT 3, and a NOP of LAT 1. -/
theorem witness_CommandCompletesAfterItsLatency : ∀ n ∈ [0x2110, 0x0006, 0x0000],
    (slow (BitVec.ofNat 64 n)).phase = .idle ∧
    (slow (BitVec.ofNat 64 n)).inputs =
      .access (.write ((slow 0).setup.platform.base + 0x20) 8 (BitVec.ofNat 64 n)) :: .wait :: [] ∧
    (n = 0x2110 → decode 0x2110 = some (.inv 1 2) ∧ (slow 0).latency 0x2110 = 4) ∧
    (n = 0x0006 → decodeOn (slow 0).params 0x0006 = none ∧ (slow 0).latency 0x0006 = 3) ∧
    (n = 0x0000 → decode 0x0000 = some .nop ∧ (slow 0).latency 0x0000 = 1) := by decide +kernel

/-- An illegal word, and an UNPACK one byte short. -/
theorem witness_HardwareSetWinsOverHostClear : ∀ n ∈ [0x06, 0x318],
    (ending (BitVec.ofNat 32 n) [wr 0x18 0xE]).phase = .busy (BitVec.ofNat 32 n) 1 ∧
    (ending (BitVec.ofNat 32 n) [wr 0x18 0xE]).inputs =
      .access (.write ((ending 0 []).setup.platform.base + 0x18) 8 0xE) :: [] ∧
    decodeOn (ending 0 []).params 0x06 = none ∧ decode 0x318 = some (.unpack 3) ∧
    (ending 0x318 [wr 0x18 0xE]).pbufLen.toNat < (ending 0 []).params.packedBytes := by decide +kernel

/-- CMD, SCALAR, PBUF_LEN, and the first and the last word of PBUF. -/
theorem witness_WriteInCompletingCycleIsDropped : ∀ off ∈ [0x20, 0x28, 0x40, 0x100, 0x118],
    (ending 0x1E [wr off 7]).params ∈ Params.decided ∧ (ending 0x1E [wr off 7]).phase = .busy 0x1E 1 ∧
    (off ∈ [0x20, 0x28, 0x40] ∨ off = 0x100 + 8 * 0 ∨
      (3 < (ending 0 []).params.pbufWords ∧ off = 0x100 + 8 * 3)) ∧
    (ending 0x1E [wr off 7]).inputs = .access (.write ((ending 0 []).setup.platform.base + off) 8 7) :: [] := by
  decide +kernel

/-- An idle block, a write of each kind, and both values of SRST. -/
theorem witness_IdleWritesTakeEffect : ∀ off ∈ [0x10, 0x18, 0x28, 0x40, 0x100, 0x118, 0x1FF8],
    (doing (wr off 3) (loaded .f222 0)).params ∈ Params.decided ∧ (doing (wr off 3) (loaded .f222 0)).phase = .idle ∧
    3 < (loaded .f222 0).params.pbufWords ∧ (loaded .f222 0).pbuf.length = (loaded .f222 0).params.pbufWords ∧
    (1 : Word).getLsbD 1 = false ∧ (3 : Word).getLsbD 1 = true ∧ off < 0x2000 ∧ off % 8 = 0 ∧ off ≠ 0x20 ∧
    (doing (wr off 3) (loaded .f222 0)).inputs =
      .access (.write ((loaded .f222 0).setup.platform.base + off) 8 3) :: [] := by decide +kernel

/-- Two states that agree on the instance, the sequencer and the host's list, and not on the operands. -/
theorem witness_TimingIsIndependentOfData :
    (slow 0x2110).setup = ((slow 0x2110).setElem 2 (chain .f383 1)).setup ∧
    (slow 0x2110).phase = ((slow 0x2110).setElem 2 (chain .f383 1)).phase ∧
    (slow 0x2110).inputs = ((slow 0x2110).setElem 2 (chain .f383 1)).inputs ∧
    (slow 0x2110).cmdCount = ((slow 0x2110).setElem 2 (chain .f383 1)).cmdCount ∧
    (slow 0x2110).elem 2 ≠ ((slow 0x2110).setElem 2 (chain .f383 1)).elem 2 := by decide +kernel

/-- A BUSY cycle that does not complete, with a write to SCALAR, with one of SRST, and with one of IE alone. -/
theorem witness_BusyWritesAreDroppedWithOverrun : ∀ c ∈ [(0x28, 3), (0x10, 3), (0x10, 1)],
    (running (wr c.1 (BitVec.ofNat 64 c.2))).params ∈ Params.decided ∧
    (running (wr c.1 (BitVec.ofNat 64 c.2))).isBusy = true ∧
    (running (wr c.1 (BitVec.ofNat 64 c.2))).phase = .busy 0x1E 2 ∧ c.1 < 0x2000 ∧ c.1 % 8 = 0 ∧
    (running (wr c.1 (BitVec.ofNat 64 c.2))).inputs =
      .access (.write ((start .f222).setup.platform.base + c.1) 8 (BitVec.ofNat 64 c.2)) :: [] ∧
    (1 : Word).getLsbD 1 = false ∧ (3 : Word).getLsbD 1 = true ∧
    3 < (start .f222).params.pbufWords ∧ 3 < (start .f222).params.numLimbs := by decide +kernel

/-- The ends of the three reserved ranges, and of the read-only ones, on F222. -/
theorem witness_ReservedAndReadOnlyOffsets :
    (start .f222).params ∈ Params.decided ∧
    (∀ off ∈ [0x48, 0xF8, 0x100 + 8 * 4, 0xFF8, 0x1000 + 8 * (16 * 4), 0x1FF8], off < 0x2000 ∧ off % 8 = 0 ∧
      ((0x48 ≤ off ∧ off < 0x100) ∨ (0x100 + 8 * (start .f222).params.pbufWords ≤ off ∧ off < 0x1000) ∨
        0x1000 + 8 * (16 * (start .f222).params.numLimbs) ≤ off)) ∧
    (∀ off ∈ [0x00, 0x08, 0x30, 0x38, 0x1000, 0x11F8], off < 0x2000 ∧ off % 8 = 0 ∧
      (off ∈ [0x00, 0x08, 0x30, 0x38] ∨
        (0x1000 ≤ off ∧ off < 0x1000 + 8 * (16 * (start .f222).params.numLimbs)))) := by decide +kernel

theorem witness_OtherWidthsAndAlignmentsDoNothing :
    (0x20 < 0x2000 ∧ (4 ≠ 8 ∨ 0x20 % 8 ≠ 0)) ∧ (0x1FFF < 0x2000 ∧ (8 ≠ 8 ∨ 0x1FFF % 8 ≠ 0)) := by decide

theorem witness_RegisterMapReads :
    (ending 0x1E []).params ∈ Params.decided ∧ (ending 0x1E []).isBusy = true ∧
    ∀ p ∈ Params.decided, (loaded p 5).params ∈ Params.decided ∧ (loaded p 5).isBusy = false ∧
      (loaded p 5).params.pbufWords - 1 < (loaded p 5).params.pbufWords ∧
      (loaded p 5).params.numLimbs - 1 < (loaded p 5).params.numLimbs := by decide +kernel

theorem witness_BusyReadsAreFreeDraws :
    (ending 0x1E []).params ∈ Params.decided ∧ (ending 0x1E []).isBusy = true ∧
    0x30 ∈ [0x30, 0x40] ∧ 3 < (ending 0x1E []).params.pbufWords ∧ 63 < 16 * (ending 0x1E []).params.numLimbs := by
  decide +kernel

/-- Reads of STATUS, of RESULT, of the last limb, and a narrow one, by an idle block and by one in the last cycle of a command;
the reads of RESULT and the limb are free in the second. -/
theorem witness_ReadsHaveNoSideEffect : ∀ c ∈ [(0x18, 8), (0x30, 8), (0x11F8, 8), (0x18, 4)],
    c.1 < 0x2000 ∧ (0x11F8 : Nat) < 0x1000 + 8 * (16 * (start .f222).params.numLimbs) ∧
    (doing (.access (.read (0x40000000 + c.1) c.2)) (start .f222)).isBusy = false ∧
    (doing (.access (.read (0x40000000 + c.1) c.2)) (start .f222)).inputs =
      .access (.read ((start .f222).setup.platform.base + c.1) c.2) :: [] ∧
    (ending 0x1E [.access (.read (0x40000000 + c.1) c.2)]).isBusy = true ∧
    (ending 0x1E [.access (.read (0x40000000 + c.1) c.2)]).inputs =
      .access (.read ((ending 0 []).setup.platform.base + c.1) c.2) :: [] := by decide +kernel

theorem witness_SoftResetIsHardwareReset : (3 : Word).getLsbD 1 = true := by decide

theorem witness_DecidedSetsAreLegal :
    Params.f222 ∈ Params.decided ∧ Params.f383 ∈ Params.decided ∧ Params.f414 ∈ Params.decided ∧
      Params.f511 ∈ Params.decided := by decide

/-- A legal set-up of each kind, by the part of R8 that a computation decides, and one that is not legal. -/
theorem witness_OnlyLegalInstancesAreBuilt :
    (∀ p ∈ Params.decided, (start p).setup.params ∈ Params.decided) ∧
      ¬Params.Legal { (start .f222).setup with params := { Params.f222 with mdb := 28 } }.params :=
  ⟨by decide, fun h => absurd h.1 (by decide +kernel)⟩

theorem witness_ResetMeetsTheInvariant : (start .f511).setup.params ∈ Params.decided := by decide

/-- The invariants hold of a block with operands, about to run ADD e4, e1, e2, whose step answers a next state. -/
theorem witness_StepKeepsTheInvariant :
    Inv (issuing .f222 0x00021401) ∧ ∃ t, step (issuing .f222 0x00021401) = .next t :=
  ⟨{ decided := by decide
     limbs := by decide +kernel
     scratch := by decide +kernel
     image := by decide +kernel
     errors := by decide +kernel
     running := fun _ _ h => by cases h }, exists_next (by decide +kernel)⟩

theorem witness_StepKeepsRegistersDefined :
    Inv (issuing .f222 0x00021401) ∧ Defined (issuing .f222 0x00021401) ∧
      (issuing .f222 0x00021401).report = none ∧ ∃ t, step (issuing .f222 0x00021401) = .next t :=
  ⟨witness_StepKeepsTheInvariant.1, fun _ => by decide +kernel, rfl, exists_next (by decide +kernel)⟩

theorem witness_StepKeepsTheConstants :
    (∃ t, step (issuing .f383 0x00021401) = .next t) ∧ (∀ p ∈ [Params.f222, .f414], p ∈ Params.decided ∧ p.prime % 4 = 3) ∧
      ∀ p ∈ [Params.f383, .f511], p ∈ Params.decided ∧ p.prime % 8 = 5 :=
  ⟨exists_next (by decide +kernel), by decide +kernel, by decide +kernel⟩

/-- Each of the cases: a quiet cycle, a command in its last cycle, one accepted and completed in the cycle, a reset. -/
theorem witness_OnlyCommandsAndResetWriteElements :
    (∃ t, step (loaded .f222 0) = .next t) ∧ (∃ t, step (ending 0x1E []) = .next t) ∧
      (∃ t, step (issuing .f222 0x00021401) = .next t) ∧ ∃ t, step (doing .reset (loaded .f222 0)) = .next t :=
  ⟨exists_next (by decide +kernel), exists_next (by decide +kernel), exists_next (by decide +kernel),
    exists_next (by decide +kernel)⟩

theorem witness_CommandsChangeOnlyTheirOutputs : ∃ t, exec (.add 4 1 2) (loaded .f222 0) = .next t :=
  exists_next (by decide +kernel)

/-- The same operands, into a register of its own and over a source. -/
theorem witness_AliasingDoesNotChangeResults :
    (loaded .f222 1).setup = ((loaded .f222 1).setElem 5 (minWF .f222)).setup ∧
    (loaded .f222 1).draws = ((loaded .f222 1).setElem 5 (minWF .f222)).draws ∧
    (loaded .f222 1).scalar = ((loaded .f222 1).setElem 5 (minWF .f222)).scalar ∧
    (loaded .f222 1).elem 1 = ((loaded .f222 1).setElem 5 (minWF .f222)).elem 1 ∧
    (loaded .f222 1).elem 2 = ((loaded .f222 1).setElem 5 (minWF .f222)).elem 5 := by decide +kernel

/-- The operands of a command: registers that are WF, on every decided instance. -/
abbrev MeetsOperands (s : State) (sources : List Reg) : Prop :=
  s.params ∈ Params.decided ∧ ∀ r ∈ sources, s.operandOk r = true

theorem witness_ReduceAndNormResults : ∀ p ∈ Params.decided,
    MeetsOperands (loaded p 0) [1] ∧ MeetsOperands (loaded p 0) [2] ∧ (loaded p 0).setup.looseExact = true ∧
      MeetsOperands (loaded p 0) [0] ∧ normalized (loaded p 0).params ((loaded p 0).elem 0) = true := by decide +kernel

theorem witness_AddSubNegResults : ∀ p ∈ Params.decided, MeetsOperands (loaded p 0) [1, 2] := by decide +kernel

theorem witness_AddsSubsResults : ∀ p ∈ Params.decided, ∀ v ∈ [p.addMin, p.addMax],
    MeetsOperands (loaded p (BitVec.ofInt 64 v)) [1] ∧
    (loaded p (BitVec.ofInt 64 v)).params.addMin ≤ (loaded p (BitVec.ofInt 64 v)).scalarInt ∧
    (loaded p (BitVec.ofInt 64 v)).scalarInt ≤ (loaded p (BitVec.ofInt 64 v)).params.addMax := by decide +kernel

theorem witness_MulSqrResults : ∀ p ∈ Params.decided, MeetsOperands (loaded p 0) [1, 2] := by decide +kernel

theorem witness_MulsResult : ∀ p ∈ Params.decided, ∀ v ∈ [p.mulMin, p.mulMax],
    MeetsOperands (loaded p (BitVec.ofInt 64 v)) [1] ∧
    (loaded p (BitVec.ofInt 64 v)).params.mulMin ≤ (loaded p (BitVec.ofInt 64 v)).scalarInt ∧
    (loaded p (BitVec.ofInt 64 v)).scalarInt ≤ (loaded p (BitVec.ofInt 64 v)).params.mulMax := by decide +kernel

/-- A zero and a non-zero divisor. -/
theorem witness_InvDivResults : ∀ p ∈ Params.decided,
    MeetsOperands (loaded p 0) [1, 2, 3] ∧ (loaded p 0).elemResidue 3 = 0 ∧ (loaded p 0).elemResidue 2 ≠ 0 := by
  decide +kernel

/-- e1 holds `x`. -/
def holding (p : Params) (x : Int) : State := (start p).setElem 1 (chain p x)

/-- 4 is a square on every instance, and not 0; F222 and F414 are 3 (mod 4), F383 and F511 are 5 (mod 8). -/
theorem witness_SqrtIsqrtResults :
    (∀ p ∈ Params.decided, MeetsOperands (holding p 4) [1] ∧ (holding p 4).elemResidue 1 ≠ 0 ∧
      MeetsOperands (holding p 0) [1] ∧ (holding p 0).elemResidue 1 = 0) ∧
    (∀ p ∈ Params.decided, IsSquare ((holding p 4).elemVal 1 : ZMod (holding p 4).params.prime)) ∧
    (holding .f222 4).params.prime % 4 = 3 ∧ (holding .f414 4).params.prime % 4 = 3 ∧
    (holding .f383 4).params.prime % 8 = 5 ∧ (holding .f511 4).params.prime % 8 = 5 := by
  refine ⟨by decide +kernel, fun p hp => ⟨2, ?_⟩, by decide +kernel, by decide +kernel, by decide +kernel, by decide +kernel⟩
  have h : (holding p 4).elemVal 1 = 4 := (by decide +kernel : ∀ p ∈ Params.decided, (holding p 4).elemVal 1 = 4) p hp
  rw [h]
  norm_num

theorem witness_LegendreResult : ∀ p ∈ Params.decided, MeetsOperands (loaded p 0) [1] := by decide +kernel

/-- In a field of q elements, q ≡ 5 (mod 8): 16 is a non-zero fourth power, 4 a square and no fourth power, 2 no square. -/
theorem quartic_cases (q : Nat) (hq : q.Prime) (h8 : q % 8 = 5) :
    ((16 : ZMod q) ≠ 0 ∧ ∃ y : ZMod q, y ^ 4 = 16) ∧ (IsSquare (4 : ZMod q) ∧ ¬∃ y : ZMod q, y ^ 4 = 4) ∧
      ¬IsSquare (2 : ZMod q) := by
  have hp : Fact q.Prime := ⟨hq⟩
  have hne : q ≠ 2 := by omega
  have two : ¬IsSquare (2 : ZMod q) := by
    rw [ZMod.exists_sq_eq_two_iff hne]
    omega
  have negTwo : ¬IsSquare (-2 : ZMod q) := by
    rw [ZMod.exists_sq_eq_neg_two_iff hne]
    omega
  have sixteen : (16 : ZMod q) ≠ 0 := by
    intro h
    have h' : ((2 ^ 4 : Nat) : ZMod q) = 0 := by push_cast; linear_combination h
    rw [ZMod.natCast_eq_zero_iff] at h'
    exact hne ((Nat.prime_dvd_prime_iff_eq hq Nat.prime_two).mp (hq.dvd_of_dvd_pow h'))
  refine ⟨⟨sixteen, 2, by norm_num⟩, ⟨⟨2, by norm_num⟩, ?_⟩, two⟩
  rintro ⟨y, hy⟩
  have hprod : (y * y - 2) * (y * y - -2) = 0 := by linear_combination hy
  rcases mul_eq_zero.mp hprod with h | h
  · exact two ⟨y, (sub_eq_zero.mp h).symm⟩
  · exact negTwo ⟨y, (sub_eq_zero.mp h).symm⟩

/-- The four cases on the p ≡ 5 (mod 8) sets: 0; 16, a fourth power; 4, a square and no fourth power; 2, no square. -/
theorem witness_QuarticLegendreResult :
    (∀ p ∈ [Params.f383, Params.f511], p.prime % 8 = 5 ∧
      ∀ x ∈ [0, 16, 4, 2], MeetsOperands (holding p x) [1] ∧ (holding p x).elemVal 1 = x) ∧
    (∀ p ∈ [Params.f222, Params.f414], (holding p 0).params ∈ Params.decided ∧ p.prime % 4 = 3) ∧
    ∀ q : Nat, q.Prime → q % 8 = 5 →
      ((16 : ZMod q) ≠ 0 ∧ ∃ y : ZMod q, y ^ 4 = 16) ∧ (IsSquare (4 : ZMod q) ∧ ¬∃ y : ZMod q, y ^ 4 = 4) ∧
        ¬IsSquare (2 : ZMod q) :=
  ⟨by decide +kernel, by decide +kernel, quartic_cases⟩

/-- PBUF_LEN one byte short, and just enough. -/
theorem witness_UnpackResult :
    (image [] 28).params ∈ Params.decided ∧ (image [] 28).params.packedBytes ≤ (image [] 28).pbufLen.toNat ∧
    (image [] 27).params ∈ Params.decided ∧ (image [] 27).pbufLen.toNat < (image [] 27).params.packedBytes := by
  decide +kernel

theorem witness_PackResult : ∀ p ∈ Params.decided, MeetsOperands (loaded p 0) [2] := by decide +kernel

/-- A negative operand, and the image of p − 1, the largest value below p. -/
theorem witness_PackUnpackRoundTrip :
    MeetsOperands (loaded .f222 0) [2] ∧
    (image [0xFFFFFFFFFFFFFF8A, -1, -1, 0x3FFFFFFF] 28).params ∈ Params.decided ∧
    Params.f222.packedBytes ≤ (image [0xFFFFFFFFFFFFFF8A, -1, -1, 0x3FFFFFFF] 28).pbufLen.toNat ∧
    (image [0xFFFFFFFFFFFFFF8A, -1, -1, 0x3FFFFFFF] 28).imageValue Params.f222.packedBytes =
      Params.f222.prime - 1 := by decide +kernel

/-- SCALAR at both ends of its range: the upper one is not negative. -/
theorem witness_MovSetiScrubNopResults : ∀ p ∈ Params.decided, ∀ v ∈ [p.addMin, p.addMax],
    (loaded p (BitVec.ofInt 64 v)).params ∈ Params.decided ∧
    (loaded p (BitVec.ofInt 64 v)).params.addMin ≤ (loaded p (BitVec.ofInt 64 v)).scalarInt ∧
    (loaded p (BitVec.ofInt 64 v)).scalarInt ≤ (loaded p (BitVec.ofInt 64 v)).params.addMax ∧
    (v = p.addMax → 0 ≤ (loaded p (BitVec.ofInt 64 v)).scalarInt) := by decide +kernel

/-- Congruent and incongruent operands: p against 0, p against −1. -/
theorem witness_CmpeqIszeroResults : ∀ p ∈ Params.decided,
    MeetsOperands (load p (chain p p.prime) (chain p 0) 0) [1, 2] ∧
    (load p (chain p p.prime) (chain p 0) 0).elemVal 1 ≡
      (load p (chain p p.prime) (chain p 0) 0).elemVal 2 [ZMOD (p.prime : Int)] ∧
    (load p (chain p p.prime) (chain p 0) 0).elemVal 1 ≡ 0 [ZMOD (p.prime : Int)] ∧
    MeetsOperands (load p (chain p (-1)) (chain p 0) 0) [1, 2] ∧
    ¬(load p (chain p (-1)) (chain p 0) 0).elemVal 1 ≡
      (load p (chain p (-1)) (chain p 0) 0).elemVal 2 [ZMOD (p.prime : Int)] ∧
    ¬(load p (chain p (-1)) (chain p 0) 0).elemVal 1 ≡ 0 [ZMOD (p.prime : Int)] := by
  simp only [Int.ModEq]
  decide +kernel

/-- Operands that are congruent (0 and 0) and ones that are not. -/
theorem witness_NormLaws : ∀ p ∈ Params.decided, MeetsOperands (loaded p 0) [0, 3] ∧
    (loaded p 0).elemVal 0 ≡ (loaded p 0).elemVal 3 [ZMOD ((loaded p 0).params.prime : Int)] ∧
    MeetsOperands (loaded p 0) [0, 1] ∧
    ¬(loaded p 0).elemVal 0 ≡ (loaded p 0).elemVal 1 [ZMOD ((loaded p 0).params.prime : Int)] := by
  simp only [Int.ModEq]
  decide +kernel

theorem witness_AddSubtractLaws : ∀ p ∈ Params.decided, ∀ v ∈ [p.addMin, p.addMax],
    MeetsOperands (loaded p (BitVec.ofInt 64 v)) [0, 1, 2] ∧
    (loaded p (BitVec.ofInt 64 v)).elem 3 = chain (loaded p (BitVec.ofInt 64 v)).params 0 ∧
    (loaded p (BitVec.ofInt 64 v)).setup.looseExact = true ∧
    (loaded p (BitVec.ofInt 64 v)).params.addMin ≤ (loaded p (BitVec.ofInt 64 v)).scalarInt ∧
    (loaded p (BitVec.ofInt 64 v)).scalarInt ≤ (loaded p (BitVec.ofInt 64 v)).params.addMax := by decide +kernel

theorem witness_MultiplicationLaws : ∀ p ∈ Params.decided, ∀ v ∈ [p.mulMin, p.mulMax],
    MeetsOperands (loaded p (BitVec.ofInt 64 v)) [0, 1, 2] ∧
    (loaded p (BitVec.ofInt 64 v)).params.mulMin ≤ (loaded p (BitVec.ofInt 64 v)).scalarInt ∧
    (loaded p (BitVec.ofInt 64 v)).scalarInt ≤ (loaded p (BitVec.ofInt 64 v)).params.mulMax ∧
    (loaded p (BitVec.ofInt 64 v)).params.addMin ≤ (loaded p (BitVec.ofInt 64 v)).scalarInt ∧
    (loaded p (BitVec.ofInt 64 v)).scalarInt ≤ (loaded p (BitVec.ofInt 64 v)).params.addMax := by decide +kernel

/-- e0 holds 4, whose LEG is 1. -/
theorem witness_PowerLadderLaws : ∀ p ∈ Params.decided,
    MeetsOperands ((loaded p 0).setElem 0 (chain p 4)) [0, 1] ∧
    ((loaded p 0).setElem 0 (chain p 4)).elemResidue 0 ≠ 0 ∧
    resultAfter (.leg 0) ((loaded p 0).setElem 0 (chain p 4)) = some 1 := by decide +kernel

theorem witness_NonWfOperandLeavesRdUnspecified :
    destination (.add 4 1 5) = some 4 ∧ ∃ r ∈ checkedSources (.add 4 1 5), (loaded .f222 0).operandOk r = false :=
  ⟨rfl, 5, by decide, by decide +kernel⟩

/-- SCALAR just outside each end of the two ranges. -/
theorem witness_OutOfRangeScalarLeavesRdUnspecified :
    (∀ v ∈ [Params.f222.addMin - 1, Params.f222.addMax + 1], ∀ i ∈ [Instr.adds 4 1, .subs 4 1, .seti 4],
      destination i = some 4 ∧
      scalarInRange (loaded .f222 (BitVec.ofInt 64 v)).params (loaded .f222 (BitVec.ofInt 64 v)).scalar i = false ∧
      ∀ r ∈ checkedSources i, (loaded .f222 (BitVec.ofInt 64 v)).operandOk r = true) ∧
    ∀ v ∈ [Params.f222.mulMin - 1, Params.f222.mulMax + 1],
      destination (.muls 4 1) = some 4 ∧
      scalarInRange (loaded .f222 (BitVec.ofInt 64 v)).params (loaded .f222 (BitVec.ofInt 64 v)).scalar (.muls 4 1) =
        false ∧
      ∀ r ∈ checkedSources (.muls 4 1), (loaded .f222 (BitVec.ofInt 64 v)).operandOk r = true := by decide +kernel

theorem witness_NonWfOperandLeavesResultUnspecified :
    (writesResult (.leg 5) = true ∧ (Instr.leg 5).existsOn (loaded .f222 0).params = true ∧
      ∃ r ∈ checkedSources (.leg 5), (loaded .f222 0).operandOk r = false) ∧
    (writesResult (.legq 5) = true ∧ (Instr.legq 5).existsOn (loaded .f383 0).params = true ∧
      ∃ r ∈ checkedSources (.legq 5), (loaded .f383 0).operandOk r = false) :=
  ⟨⟨rfl, rfl, 5, by decide, by decide +kernel⟩, rfl, by decide +kernel, 5, by decide, by decide +kernel⟩

theorem witness_NonWfPackChangesNothingElse : (loaded .f222 0).operandOk 5 = false := by decide +kernel

/-- After the host's half of a cycle in which the host writes STATUS, the last cycle of ADD with a scrubbed source, of SETI out
of range, of a NOP and of an illegal word; a command accepted and completed in one cycle, a BUSY cycle that completes nothing,
a stop of the host's half, and a fault already on report. -/
theorem witness_StrictStepStopsAtModelFaults :
    (∀ n ∈ [0x00051401, 0x0000041D, 0x00000000, 0x00000006],
      (ending (BitVec.ofNat 32 n) [wr 0x18 2]).report = none ∧
      (observe (fun u => decide (u.phase = .busy (BitVec.ofNat 32 n) 1))
        (ending (BitVec.ofNat 32 n) [wr 0x18 2]).hostHalf) = some true) ∧
    (decode 0x00051401 = some (.add 4 1 5) ∧ decode 0x0000041D = some (.seti 4) ∧ decode 0 = some .nop ∧
      decodeOn .f222 0x00000006 = none) ∧
    observe (fun u => (u.operandOk 1, u.operandOk 5, scalarInRange u.params u.scalar (.seti 4)))
      (ending 0x0000041D [wr 0x18 2]).hostHalf = some (false, false, false) ∧
    (checkedSources .nop = [] ∧ checkedSources (.seti 4) = [] ∧ checkedSources (.add 4 1 5) = [1, 5] ∧
      scalarInRange (ending 0 []).params (ending 0 []).scalar .nop = true) ∧
    observe (fun u => (u.report, u.phase)) (issuing .f222 0x00051401).hostHalf = some (none, .busy 0x00051401 1) ∧
    observe (fun u => (u.report, u.phase)) (State.hostHalf { ending 0x1E [] with phase := .busy 0x1E 2 }) =
      some (none, .busy 0x1E 2) ∧
    observe (fun _ => ()) (doing (rd 0x2000) (start .f222)).hostHalf = none ∧
    ({ start .f222 with report := some .scalar } : State).report ≠ none := by decide +kernel

theorem witness_CarryChainIsChain : Params.f511 ∈ Params.decided ∧
    ([BitVec.ofInt 64 (2 ^ 63 - 64), BitVec.ofInt 64 (-(2 ^ 63 - 64))] : Element) ≠ [] ∧
    ∀ x ∈ ([2 ^ 63 - 64, -(2 ^ 63 - 64)] : List Int),
      -(2 ^ 63 - 64) ≤ (BitVec.ofInt 64 x).toInt ∧ (BitVec.ofInt 64 x).toInt ≤ 2 ^ 63 - 64 := by decide +kernel

theorem witness_ReduceAndNormalizePaths : ∀ p ∈ Params.decided, wf p (minWF p) = true := by decide +kernel

theorem witness_AddSubPaths : ∀ p ∈ Params.decided, wf p (maxWF p) = true ∧ wf p (minWF p) = true ∧
    ∀ v ∈ [p.addMin, p.addMax],
      p.addMin ≤ (BitVec.ofInt 64 v).toInt ∧ (BitVec.ofInt 64 v).toInt ≤ p.addMax := by decide +kernel

theorem witness_MulPathIsTheClosedForm : ∀ p ∈ Params.decided, wf p (maxWF p) = true ∧ wf p (minWF p) = true := by
  decide +kernel

theorem witness_MulsPathIsTheClosedForm : ∀ p ∈ Params.decided, wf p (minWF p) = true ∧
    ∀ v ∈ [p.mulMin, p.mulMax],
      p.mulMin ≤ (BitVec.ofInt 64 v).toInt ∧ (BitVec.ofInt 64 v).toInt ≤ p.mulMax := by decide +kernel

theorem witness_LadderPathIsThePower : ∀ p ∈ Params.decided, wf p (minWF p) = true ∧ 1 ≤ expInv p := by decide +kernel

end Sys2Proof.Tests
end

section
/-! PROOFS, scope and parameter sets (00_scope.md R8, R9): the conditions of R8 one by one for the decided sets, the
values after reset on every set-up (10_state.md R49), and what `buildInstance` builds. -/

namespace Sys2Proof

open Sys2Proof.Machine Sys2Proof.Safety

namespace Params

/-- The decidable part of R8, condition by condition. -/
theorem check_iff (p : Params) :
    p.check = true ↔
      p.checkHalves = true ∧ p.checkTop = true ∧ p.checkClass = true ∧ p.checkPacked = true ∧
        p.checkScalarRoom = true ∧ p.checkConstant = true ∧ p.checkMap = true ∧ widthsFit p = true := by
  simp only [check, Bool.and_eq_true, and_assoc]

namespace Sound

variable {p : Params} (hp : p.Sound)
include hp

/-- R8(b). -/
theorem checkTop : p.checkTop = true := by simp [Params.checkTop, hp.hdb_pos, hp.hdb_le]

/-- R8(e). -/
theorem checkPacked : p.checkPacked = true := by
  have := hp.packed
  simp only [Params.checkPacked, decide_eq_true_eq]
  omega

/-- R8(f). -/
theorem checkScalarRoom : p.checkScalarRoom = true := by
  simpa [Params.checkScalarRoom, Nat.mul_comm] using hp.scalar_room

/-- R8(g). -/
theorem checkConstant : p.checkConstant = true := by
  simpa [Params.checkConstant, Nat.mul_comm] using hp.c_sq

end Sound

/-- R8(a), and R71's bound on D. -/
theorem decided_checkHalves_checkMap : ∀ p ∈ decided, p.checkHalves = true ∧ p.checkMap = true := by decide

/-- R8(d). -/
theorem decided_checkClass : ∀ p ∈ decided, p.checkClass = true := by decide +kernel

/-- R8(h): the interval analysis of R221. -/
theorem decided_widthsFit : ∀ p ∈ decided, widthsFit p = true := by decide +kernel

theorem decided_check {p : Params} (h : p ∈ decided) : p.check = true := by
  have hp : p.Sound := sound_of_decided h
  obtain ⟨halves, map⟩ := decided_checkHalves_checkMap p h
  exact p.check_iff.mpr ⟨halves, hp.checkTop, decided_checkClass p h, hp.checkPacked, hp.checkScalarRoom,
    hp.checkConstant, map, decided_widthsFit p h⟩

theorem decided_legal {p : Params} (h : p ∈ decided) : p.Legal := ⟨decided_check h, Primality.decided_prime p h⟩

end Params

namespace Machine

/-- STATUS reads 0 where no flag is set and no command is running (R36). -/
theorem State.statusWord_of_clear {s : State} (code : s.errCode = .none) (overrun : s.overrun = false)
    (err : s.err = false) (done : s.done = false) (busy : s.isBusy = false) : s.statusWord = 0#64 := by
  simp only [State.statusWord, code, overrun, err, done, busy]
  decide

/-- CTRL reads 0 where IE is clear (R37). -/
theorem State.ctrlWord_of_ie_clear {s : State} (h : s.ie = false) : s.ctrlWord = 0#64 := by
  simp only [State.ctrlWord, h]
  decide

/-- The state after reset has the values of R49, on every set-up, whatever the host is about to do. -/
theorem isResetState_resetOf (u : Setup) (ins : List HostOp) (d : Nat) : IsResetState (State.resetOf u ins d) where
  elems := State.resetOf_elem u ins d
  d0 := rfl
  d1 := rfl
  d2 := rfl
  status := State.statusWord_of_clear rfl rfl rfl rfl rfl
  ctrl := State.ctrlWord_of_ie_clear rfl
  cmd := rfl
  scalar := rfl
  result := rfl
  cmdCount := rfl
  pbuf := rfl
  pbufLen := rfl
  idle := rfl
  irq := rfl

theorem buildInstance_of_legal {u : Setup} (h : u.params.Legal) (ins : List HostOp) :
    buildInstance u ins = some (State.resetOf u ins 0) := buildInstance_eq_some.mpr ⟨h, rfl⟩

theorem buildInstance_of_not_legal {u : Setup} (h : ¬u.params.Legal) (ins : List HostOp) :
    buildInstance u ins = none :=
  Option.eq_none_iff_forall_ne_some.mpr fun _ hs => h (buildInstance_eq_some.mp hs).1

end Machine

/-- Settles O4: the decoder evaluated on each word. -/
theorem specWordsDecode : Obligations.SpecWordsDecode := by
  unfold Obligations.SpecWordsDecode
  decide

/-- Settles O22, from the checks of R8 one by one and the Lucas certificates of the moduli. -/
theorem decidedSetsAreLegal : Obligations.DecidedSetsAreLegal := fun _ h => Params.decided_legal h

/-- Settles O23: the built state is `State.resetOf`, whose values are those of R49. -/
theorem onlyLegalInstancesAreBuilt : Obligations.OnlyLegalInstancesAreBuilt := by
  have reference_legal : Setup.reference.params.Legal := Params.decided_legal (p := .f222) (by decide)
  refine ⟨buildInstance_of_legal reference_legal [], fun u ins =>
    ⟨fun legal => ?_, fun illegal => ?_, fun decided => ?_⟩⟩
  · exact ⟨_, buildInstance_of_legal legal ins, isResetState_resetOf u ins 0, rfl, rfl⟩
  · exact buildInstance_of_not_legal illegal ins
  · exact ⟨_, buildInstance_of_legal (Params.decided_legal decided) ins⟩

end Sys2Proof
end

section
/-! PROOFS, the run of a command (60_exceptions.md R320, R327): every command completes, and before its completion effects it
has written at most its outputs (10_state.md R31, R39 to R41); its result depends on the values of its operands alone (R33). -/

namespace Sys2Proof

open Sys2Proof.Machine Sys2Proof.Safety

namespace Machine

/-- What a command's run may have written before its completion effects: its outputs (R31, R40, R41), with limbs and PBUF
words kept in number, and none of the fields that completion sets (R327). -/
structure CommandWrites (i : Instr) (s u : State) : Prop where
  frame : ChangesOnly (destination i) (writesResult i) (writesImage i) s u
  err : u.err = s.err
  errCode : u.errCode = s.errCode
  cmdCount : u.cmdCount = s.cmdCount
  limbs : (∀ r, (s.elem r).length = s.params.numLimbs) → ∀ r, (u.elem r).length = s.params.numLimbs
  image : s.pbuf.length = s.params.pbufWords → u.pbuf.length = s.params.pbufWords

/-- The ways a command ends: normally, or with one of the errors of R321. -/
def completions : List Completion := [.ok, .error .illegal, .error .shape]

/-- An outcome that is a completion of `i`: `i` has written its outputs, and R327's effects follow. -/
def CompletesAs (i : Instr) (s : State) (o : Host.Outcome State Fault Refusal) : Prop :=
  ∃ u, ∃ c ∈ completions, o = .next (u.complete c) ∧ CommandWrites i s u

namespace CommandWrites

variable {i : Instr} {s u : State}

theorem refl (i : Instr) (s : State) : CommandWrites i s s where
  frame := ⟨fun _ _ => rfl, fun _ => rfl, fun _ => rfl, fun _ => rfl, rfl, rfl, rfl, rfl, rfl, rfl, rfl⟩
  err := rfl
  errCode := rfl
  cmdCount := rfl
  limbs := fun h => h
  image := fun h => h

/-- The scratchpad is no output: what is staged there does not count (R44). -/
theorem of_stage {a b : Element} (h : CommandWrites i (s.stage a b) u) : CommandWrites i s u :=
  { h with frame := { h.frame with } }

/-- The draws and the report are the model's own. -/
theorem with_draws_report (h : CommandWrites i s u) (d : Nat) (r : Option UB) :
    CommandWrites i s { u with draws := d, report := r } :=
  { h with frame := { h.frame with } }

theorem reportUB (h : CommandWrites i s u) (e : UB) : CommandWrites i s (u.reportUB e) :=
  h.with_draws_report u.draws (some (u.report.getD e))

theorem setElem {rd : Reg} {L : Element} (hd : destination i = some rd)
    (hL : (∀ r, (s.elem r).length = s.params.numLimbs) → L.length = s.params.numLimbs) :
    CommandWrites i s (s.setElem rd L) :=
  { refl i s with
    frame := { (refl i s).frame with elems := fun q hq => s.setElem_elem_ne L fun e => hq (e ▸ hd) }
    limbs := fun h q => by rw [State.setElem_elem]; split <;> simp only [h, hL h] }

theorem writeLoose {rd : Reg} (hd : destination i = some rd) (V : Int) : CommandWrites i s (s.writeLoose rd V) :=
  (setElem hd fun _ => length_chain ..).with_draws_report _ s.report

theorem ubElem {rd : Reg} (hd : destination i = some rd) (e : UB) : CommandWrites i s (s.ubElem e rd) :=
  (setElem hd fun _ => by simp [State.freeElement]).with_draws_report _ (some (s.report.getD e))

theorem setResult (hr : writesResult i = true) (v : Word) : CommandWrites i s (s.setResult v) :=
  { refl i s with frame := { (refl i s).frame with resultKept := fun h => absurd (h ▸ hr) Bool.false_ne_true } }

theorem ubResult (hr : writesResult i = true) (e : UB) : CommandWrites i s (s.ubResult e) :=
  (setResult hr _).with_draws_report _ (some (s.report.getD e))

theorem writeImage (hi : writesImage i = true) (byte : Nat → BitVec 8) : CommandWrites i s (s.writeImage byte) :=
  { refl i s with
    frame := { (refl i s).frame with
      pbufKept := fun h => absurd (h ▸ hi) Bool.false_ne_true
      pbufLenKept := fun h => absurd (h ▸ hi) Bool.false_ne_true }
    image := fun _ => by simp [imageWords] }

end CommandWrites

namespace CompletesAs

variable {i : Instr} {s u : State}

theorem finish (h : CommandWrites i s u) : CompletesAs i s u.finish := ⟨u, .ok, by decide, rfl, h⟩

theorem raise_illegal (h : CommandWrites i s u) : CompletesAs i s (u.raise .illegal) := ⟨u, _, by decide, rfl, h⟩

theorem raise_shape (h : CommandWrites i s u) : CompletesAs i s (u.raise .shape) := ⟨u, _, by decide, rfl, h⟩

/-- A command that checks something, and completes either way. -/
theorem ite {c : Prop} [Decidable c] {o o' : Host.Outcome State Fault Refusal} (h : CompletesAs i s o)
    (h' : CompletesAs i s o') : CompletesAs i s (if c then o else o') := by
  split <;> assumption

theorem pairwise {rd : Reg} (hd : destination i = some rd) (a b : Reg) (V : Int) :
    CompletesAs i s (pairwise s rd a b V) := ite (finish (.writeLoose hd V)) (finish (.ubElem hd _))

theorem withScalar {rd : Reg} (hd : destination i = some rd) (a : Reg) (ok : Bool) (V : Int) :
    CompletesAs i s (withScalar s rd a ok V) :=
  ite (ite (finish (.writeLoose hd V)) (finish (.ubElem hd _))) (finish (.ubElem hd _))

/-- A command with checked operands that writes the element `L`, staged or not. -/
theorem element {c : Prop} [Decidable c] {rd : Reg} (hd : destination i = some rd) {t : State}
    (ht : CommandWrites i s t) (e : UB) : CompletesAs i s (if c then t.finish else (s.ubElem e rd).finish) :=
  ite (finish ht) (finish (.ubElem hd e))

/-- A query with checked operands. -/
theorem query {c : Prop} [Decidable c] (hr : writesResult i = true) (a b : Element) (v : Word) (e : UB) :
    CompletesAs i s (if c then ((s.stage a b).setResult v).finish else (s.ubResult e).finish) :=
  ite (finish (.of_stage (.setResult hr v))) (finish (.ubResult hr e))

end CompletesAs

/-- Every command completes, with at most its outputs written (R31, R40, R41, R320). -/
theorem exec_completes (i : Instr) (s : State) : CompletesAs i s (exec i s) := by
  cases i with
  | nop => exact .finish (.refl _ s)
  | add rd a b | sub rd a b | mul rd a b => exact .pairwise rfl a b _
  | sqr rd a => exact .pairwise rfl a a _
  | adds rd a | subs rd a | muls rd a => exact .withScalar rfl a _ _
  | neg rd a | reduce rd a => exact .element rfl (.writeLoose rfl _) _
  | norm rd a | inv rd a | div rd a b =>
    exact .element rfl (.of_stage (.setElem rfl fun _ => length_canon ..)) _
  | sqrt rd a | isqrt rd a => exact .element rfl (.setElem rfl fun _ => length_canon ..) _
  | leg a | iszero a | cmpeq a b => exact .query rfl _ _ _ _
  | legq a => exact .ite (.query rfl _ _ _ _) (.raise_illegal (.refl _ s))
  | unpack rd =>
    exact .ite (.raise_shape (.setElem rfl fun _ => length_scrubbed _))
      (.finish (.setElem rfl fun _ => length_chain ..))
  | pack a => exact .ite (.finish (.of_stage (.writeImage rfl _))) (.finish ((CommandWrites.refl _ s).reportUB _))
  | mov rd a => exact .finish (.setElem rfl fun h => h a)
  | seti rd => exact .element rfl (.setElem rfl fun _ => length_chain ..) _
  | scrub rd => exact .finish (.setElem rfl fun _ => length_scrubbed _)

/-- Completion leaves everything that is not one of its effects (R327). -/
theorem changesOnly_complete {d : Option Reg} {r im : Bool} {s u : State} (h : ChangesOnly d r im s u) (c : Completion) :
    ChangesOnly d r im s (u.complete c) := { h with }

/-- Completion has the effects of R327 on a state in which a command has written its outputs. -/
theorem CommandWrites.completed {i : Instr} {s u : State} (h : CommandWrites i s u) (c : Completion) :
    Completed c s (u.complete c) where
  done := rfl
  err := by cases c with | ok => exact h.err | error _ => rfl
  errCode := by cases c with | ok => exact h.errCode | error _ => rfl
  cmdCount := congrArg (· + 1) h.cmdCount
  idle := rfl
  d0 := congrArg (·.params.scrubbed) h.frame.setup
  d1 := congrArg (·.params.scrubbed) h.frame.setup
  d2 := congrArg (·.params.scrubbed) h.frame.setup

/-- Two runs that leave the same element in their destinations. -/
def SameResult (rd rd' : Reg) (o o' : Host.Outcome State Fault Refusal) : Prop :=
  ∃ t t', o = .next t ∧ o' = .next t' ∧ t.elem rd = t'.elem rd'

namespace SameResult

variable {rd rd' : Reg} {u u' : State}

theorem finish (h : u.elem rd = u'.elem rd') : SameResult rd rd' u.finish u'.finish := ⟨_, _, rfl, rfl, h⟩

theorem setElem {L L' : Element} (h : L = L') : SameResult rd rd' (u.setElem rd L).finish (u'.setElem rd' L').finish :=
  finish (by simp only [State.setElem_elem_same, h])

/-- Two runs that decide their checks alike. -/
theorem ite {c c' : Prop} [Decidable c] [Decidable c'] {o p o' p' : Host.Outcome State Fault Refusal} (hc : c ↔ c')
    (h : SameResult rd rd' o o') (h' : SameResult rd rd' p p') :
    SameResult rd rd' (if c then o else p) (if c' then o' else p') := by
  by_cases hd : c
  · rwa [if_pos hd, if_pos (hc.mp hd)]
  · rwa [if_neg hd, if_neg fun e => hd (hc.mpr e)]

end SameResult

/-- Two states of the same set-up with the same SCALAR, and the same draw to come. -/
structure SharesInputs (s s' : State) : Prop where
  setup : s.setup = s'.setup
  draws : s.draws = s'.draws
  scalar : s.scalar = s'.scalar

namespace SharesInputs

variable {s s' : State} {a b a' b' : Reg} (h : SharesInputs s s') (ha : s.elem a = s'.elem a') (hb : s.elem b = s'.elem b')
include h

theorem params : s.params = s'.params := congrArg Setup.params h.setup

theorem scalarInt : s.scalarInt = s'.scalarInt := congrArg BitVec.toInt h.scalar

theorem looseValue (V : Int) : s.looseValue V = s'.looseValue V := by
  simp only [State.looseValue, h.params, h.draws, h.setup]

theorem freeElement : s.freeElement = s'.freeElement := by simp only [State.freeElement, h.params, h.draws]

theorem writeLoose {V V' : Int} (hV : V = V') (rd rd' : Reg) :
    SameResult rd rd' (s.writeLoose rd V).finish (s'.writeLoose rd' V').finish :=
  .finish (by simp only [State.writeLoose_elem_same, h.looseValue, h.params, hV])

theorem ubElem (e e' : UB) (rd rd' : Reg) : SameResult rd rd' (s.ubElem e rd).finish (s'.ubElem e' rd').finish :=
  .finish (by simp only [State.ubElem_elem_same, h.freeElement])

include ha in
theorem operandOk : s.operandOk a = s'.operandOk a' := by simp only [State.operandOk, h.params, ha]

include ha in
theorem elemVal : s.elemVal a = s'.elemVal a' := by simp only [State.elemVal, h.params, ha]

include ha in
theorem elemResidue : s.elemResidue a = s'.elemResidue a' := by simp only [State.elemResidue, h.params, ha]

include ha hb in
theorem pairwise {V V' : Int} (hV : V = V') (rd rd' : Reg) :
    SameResult rd rd' (pairwise s rd a b V) (pairwise s' rd' a' b' V') :=
  .ite (by rw [h.operandOk ha, h.operandOk hb]) (h.writeLoose hV rd rd') (h.ubElem _ _ rd rd')

include ha in
theorem withScalar {ok ok' : Bool} (hok : ok = ok') {V V' : Int} (hV : V = V') (rd rd' : Reg) :
    SameResult rd rd' (withScalar s rd a ok V) (withScalar s' rd' a' ok' V') :=
  .ite (by rw [h.operandOk ha]) (.ite (by rw [hok]) (h.writeLoose hV rd rd') (h.ubElem _ _ rd rd'))
    (h.ubElem _ _ rd rd')

include ha in
/-- A loose result of one operand. -/
theorem loose {V V' : Int} (hV : V = V') (rd rd' : Reg) :
    SameResult rd rd' (if s.operandOk a then (s.writeLoose rd V).finish else (s.ubElem .operand rd).finish)
      (if s'.operandOk a' then (s'.writeLoose rd' V').finish else (s'.ubElem .operand rd').finish) :=
  .ite (by rw [h.operandOk ha]) (h.writeLoose hV rd rd') (h.ubElem _ _ rd rd')

include ha hb in
/-- R33 for the commands of two operands. -/
theorem exec_two_operands (rd rd' : Reg) :
    ∀ f ∈ [Instr.add, Instr.sub, Instr.mul, Instr.div], SameResult rd rd' (exec (f rd a b) s) (exec (f rd' a' b') s') := by
  have va := h.elemVal ha
  have vb := h.elemVal hb
  simp only [List.forall_mem_cons, List.not_mem_nil, false_implies, implies_true, and_true]
  refine ⟨h.pairwise ha hb ?sum rd rd', h.pairwise ha hb ?difference rd rd', h.pairwise ha hb ?product rd rd',
    .ite (by rw [h.operandOk ha, h.operandOk hb]) (.setElem ?quotient) (h.ubElem _ _ rd rd')⟩
  case quotient => simp only [State.stage_params, State.stage_d0, h.params, hb, h.elemResidue ha]
  all_goals simp only [h.params, va, vb]

include ha in
/-- R33 for the commands of one operand. -/
theorem exec_one_operand (rd rd' : Reg) :
    ∀ f ∈ [Instr.neg, Instr.adds, Instr.subs, Instr.sqr, Instr.muls, Instr.reduce, Instr.norm, Instr.inv, Instr.sqrt,
        Instr.isqrt, Instr.mov], SameResult rd rd' (exec (f rd a) s) (exec (f rd' a') s') := by
  have va := h.elemVal ha
  have ok : s.operandOk a = true ↔ s'.operandOk a' = true := by rw [h.operandOk ha]
  simp only [List.forall_mem_cons, List.not_mem_nil, false_implies, implies_true, and_true]
  refine ⟨h.loose ha ?_ rd rd', h.withScalar ha ?_ ?_ rd rd', h.withScalar ha ?_ ?_ rd rd', h.pairwise ha ha ?_ rd rd',
    h.withScalar ha ?_ ?_ rd rd', h.loose ha ?_ rd rd', .ite ok (.setElem ?_) (h.ubElem _ _ rd rd'),
    .ite ok (.setElem ?_) (h.ubElem _ _ rd rd'), .ite ok (.setElem ?_) (h.ubElem _ _ rd rd'),
    .ite ok (.setElem ?_) (h.ubElem _ _ rd rd'), .setElem ha⟩
  all_goals simp only [State.stage_params, State.stage_d0, State.stage_d1, h.params, h.scalar, h.scalarInt, ha, va,
    h.elemResidue ha]

end SharesInputs

end Machine

/-- Settles O30: the writes of every command are its outputs, and completion changes none of the rest. -/
theorem commandsChangeOnlyTheirOutputs : Obligations.CommandsChangeOnlyTheirOutputs := by
  intro i s t h
  obtain ⟨u, c, -, hu, hw⟩ := exec_completes i s
  obtain rfl : u.complete c = t := by simpa [hu] using h
  exact changesOnly_complete hw.frame c

/-- Settles O31: every operand is read from the state before the command, by its value. -/
theorem aliasingDoesNotChangeResults : Obligations.AliasingDoesNotChangeResults := by
  intro s s' rd a b rd' a' b' hsetup hdraws hscalar ha hb
  have h : SharesInputs s s' := ⟨hsetup, hdraws, hscalar⟩
  exact ⟨h.exec_two_operands ha hb rd rd', h.exec_one_operand ha rd rd'⟩

end Sys2Proof
end

section
/-! PROOFS, the host registers (20_memory.md R71, R73, R83): STATUS and CTRL bit by bit (10_state.md R36, R37, R47), the map,
and what a read of each offset answers. -/

namespace Sys2Proof

open Sys2Proof.Machine Sys2Proof.Safety

namespace Machine.State

variable (s : State)

/-- A bit of STATUS, by its position (R36). -/
theorem statusWord_getLsbD (i : Nat) : s.statusWord.getLsbD i =
    if i = 0 then s.isBusy else if i = 1 then s.done else if i = 2 then s.err else if i = 3 then s.overrun
    else s.errCode.bits.getLsbD (i - 4) := by
  simp only [statusWord, BitVec.getLsbD_append, BitVec.getLsbD_ofBool]
  grind

/-- A bit of CTRL, by its position (R37). -/
theorem ctrlWord_getLsbD (i : Nat) : s.ctrlWord.getLsbD i = (decide (i = 0) && s.ie) := by
  simp only [ctrlWord, BitVec.getLsbD_append, BitVec.getLsbD_ofBool]
  grind

theorem statusWord_busy : s.statusWord.getLsbD 0 = s.isBusy := s.statusWord_getLsbD 0

theorem statusWord_done : s.statusWord.getLsbD 1 = s.done := s.statusWord_getLsbD 1

theorem statusWord_err : s.statusWord.getLsbD 2 = s.err := s.statusWord_getLsbD 2

theorem statusWord_overrun : s.statusWord.getLsbD 3 = s.overrun := s.statusWord_getLsbD 3

theorem statusWord_errCode : s.statusWord.extractLsb' 4 4 = s.errCode.bits :=
  BitVec.eq_of_getLsbD_eq fun i hi => by
    rw [BitVec.getLsbD_extractLsb', statusWord_getLsbD]
    grind

theorem statusWord_reserved : s.statusWord.extractLsb' 8 56 = 0#56 :=
  BitVec.eq_of_getLsbD_eq fun i hi => by
    rw [BitVec.getLsbD_extractLsb', statusWord_getLsbD]
    grind

theorem ctrlWord_ie : s.ctrlWord.getLsbD 0 = s.ie := s.ctrlWord_getLsbD 0

theorem ctrlWord_srst : s.ctrlWord.getLsbD 1 = false := s.ctrlWord_getLsbD 1

theorem ctrlWord_reserved : s.ctrlWord.extractLsb' 1 63 = 0#63 :=
  BitVec.eq_of_getLsbD_eq fun i hi => by
    rw [BitVec.getLsbD_extractLsb', ctrlWord_getLsbD]
    grind

end Machine.State

namespace Machine

/-- The offset of PBUF[k] (R71). -/
theorem regAt_pbuf {p : Params} {k : Nat} (hk : k < p.pbufWords) : regAt p (0x100 + 8 * k) = .pbuf k := by
  have hword : (0x100 + 8 * k - 0x100) / 8 = k := by omega
  have hrange : 0x100 ≤ 0x100 + 8 * k ∧ 0x100 + 8 * k < 0x100 + 8 * p.pbufWords := by omega
  unfold regAt
  repeat rw [if_neg (by omega)]
  rw [if_pos hrange, hword]

/-- The offset of LIMB[r][i], where PBUF ends below the limbs (R71). -/
theorem regAt_limb {p : Params} (hp : 0x100 + 8 * p.pbufWords ≤ 0x1000) (r : Reg) {i : Nat} (hi : i < p.numLimbs) :
    regAt p (0x1000 + 8 * (r.toNat * p.numLimbs + i)) = .limb r i := by
  have hindex : (0x1000 + 8 * (r.toNat * p.numLimbs + i) - 0x1000) / 8 = p.numLimbs * r.toNat + i := by
    rw [Nat.mul_comm p.numLimbs]; omega
  have hr : (p.numLimbs * r.toNat + i) / p.numLimbs = r.toNat := by
    rw [Nat.mul_add_div (by omega), Nat.div_eq_of_lt hi, Nat.add_zero]
  have hi' : (p.numLimbs * r.toNat + i) % p.numLimbs = i := by rw [Nat.mul_add_mod, Nat.mod_eq_of_lt hi]
  have hrange : r.toNat * p.numLimbs + i < Params.numRegs * p.numLimbs :=
    calc r.toNat * p.numLimbs + i < (r.toNat + 1) * p.numLimbs := by rw [Nat.succ_mul]; omega
      _ ≤ Params.numRegs * p.numLimbs := Nat.mul_le_mul_right _ r.isLt
  unfold regAt
  repeat rw [if_neg (by omega)]
  rw [if_pos (by omega), hindex, hr, hi', BitVec.ofNat_toNat, BitVec.setWidth_eq]

/-- CMD has one offset (R71). -/
theorem eq_of_regAt_cmd {p : Params} {off : Nat} (h : regAt p off = .cmd) : off = 0x20 := by
  by_contra hne
  simp [regAt, ite_eq_iff, hne] at h

/-- PBUF ends below the limbs on the decided sets (R71). -/
theorem decided_pbuf_below_limbs : ∀ p ∈ Params.decided, 0x100 + 8 * p.pbufWords ≤ 0x1000 := by decide

namespace State

/-- A read answers the register's value, but for R83's free reads. -/
theorem hostRead_eq {s : State} {off : Nat} {r : HostReg} (hr : regAt s.params off = r)
    (hf : s.isBusy = false ∨ r.freeWhileBusy = false) : s.hostRead off = s.regValue r := by
  obtain hf | hf := hf <;> simp [hostRead, hr, hf]

theorem hostRead_pbuf {s : State} (hb : s.isBusy = false) {k : Nat} (hk : k < s.params.pbufWords) :
    s.hostRead (0x100 + 8 * k) = s.pbuf.getD k 0#64 := hostRead_eq (regAt_pbuf hk) (.inl hb)

theorem hostRead_limb {s : State} (hb : s.isBusy = false) (hp : s.params ∈ Params.decided) (r : Reg) {i : Nat}
    (hi : i < s.params.numLimbs) :
    s.hostRead (0x1000 + 8 * (r.toNat * s.params.numLimbs + i)) = (s.elem r).getD i 0#64 :=
  hostRead_eq (regAt_limb (decided_pbuf_below_limbs _ hp) r hi) (.inl hb)

end State

/-- The fields of ID on the decided sets: none is too wide for its field (R42). -/
theorem idWord_fields : ∀ p ∈ Params.decided,
    (p.idWord.extractLsb' 0 16).toNat = p.n ∧ (p.idWord.extractLsb' 16 16).toNat = p.c ∧
      (p.idWord.extractLsb' 32 8).toNat = p.numLimbs ∧ (p.idWord.extractLsb' 40 8).toNat = p.db ∧
      (p.idWord.extractLsb' 48 8).toNat = p.mdb ∧ (p.idWord.extractLsb' 56 8).toNat = p.hdb := by decide

/-- The fields of CFG on the decided sets (R43). -/
theorem cfgWord_fields : ∀ p ∈ Params.decided,
    (p.cfgWord.extractLsb' 0 16).toNat = p.packedBytes ∧ p.cfgWord.extractLsb' 16 8 = 16#8 ∧
      p.cfgWord.extractLsb' 24 2 = (if p.prime % 4 = 3 then 1#2 else 2#2) ∧ p.cfgWord.extractLsb' 26 6 = 0#6 ∧
      p.cfgWord.extractLsb' 32 8 = 1#8 ∧ p.cfgWord.extractLsb' 40 24 = 0#24 := by decide +kernel

end Machine

/-- Settles O19: irq's level, in the bits of CTRL and STATUS. -/
theorem irqIsTheStatusLevel : Obligations.IrqIsTheStatusLevel := by
  intro s
  rw [s.ctrlWord_ie, s.statusWord_done, s.statusWord_err, s.statusWord_overrun]
  exact ⟨rfl, rfl⟩

/-- Settles O18: the write clears flags of the state, and STATUS shows them bit by bit. -/
theorem statusIsWriteOneToClear : Obligations.StatusIsWriteOneToClear := by
  intro s v
  refine ⟨s.writeStatus v, rfl, ?_⟩
  simp only [State.statusWord_busy, State.statusWord_done, State.statusWord_err, State.statusWord_overrun,
    State.statusWord_errCode, State.statusWord_reserved, true_and]
  refine ⟨rfl, rfl, rfl, rfl, ?_, rfl⟩
  rw [State.writeStatus_errCode]
  split <;> rfl

/-- Settles O15: each offset is resolved in the map, and its word read field by field. -/
theorem registerMapReads : Obligations.RegisterMapReads := by
  intro s hp
  have hid : s.hostRead 0x00 = s.params.idWord := State.hostRead_eq rfl (.inr rfl)
  have hcfg : s.hostRead 0x08 = s.params.cfgWord := State.hostRead_eq rfl (.inr rfl)
  have hctrl : s.hostRead 0x10 = s.ctrlWord := State.hostRead_eq rfl (.inr rfl)
  have hstatus : s.hostRead 0x18 = s.statusWord := State.hostRead_eq rfl (.inr rfl)
  have hcmd : s.hostRead 0x20 = 0#32 ++ s.cmd :=
    (State.hostRead_eq rfl (.inr rfl)).trans (BitVec.setWidth_eq_append (by decide))
  have hcode : s.errCode.bits = match s.errCode with | .none => 0#4 | .illegal => 1#4 | .shape => 2#4 := by
    cases s.errCode <;> rfl
  dsimp only
  rw [hid, hcfg, hctrl, hstatus, hcmd]
  refine ⟨idWord_fields _ hp, cfgWord_fields _ hp, ⟨s.ctrlWord_ie, s.ctrlWord_reserved⟩,
    ⟨s.statusWord_busy, s.statusWord_done, s.statusWord_err, s.statusWord_overrun, s.statusWord_errCode.trans hcode,
      s.statusWord_reserved⟩,
    rfl, State.hostRead_eq rfl (.inr rfl), State.hostRead_eq rfl (.inr rfl), fun hb =>
    ⟨State.hostRead_eq rfl (.inl hb), (State.hostRead_eq rfl (.inl hb)).trans (BitVec.setWidth_eq_append (by decide)),
      fun w hw => State.hostRead_pbuf hb hw, fun r i hi => State.hostRead_limb hb hp r hi⟩⟩

end Sys2Proof
end

section
/-! PROOFS, the clock cycle (10_state.md R46, 60_exceptions.md R324, R325, 70_reset_and_hazards.md R360 to R371): what a host
write leaves, what each half of a cycle can do, and the invariant that every cycle keeps. -/

namespace Sys2Proof

open Sys2Proof.Machine Sys2Proof.Safety

namespace Machine

namespace State

variable (s : State)

theorem isBusy_eq_false_iff : s.isBusy = false ↔ s.phase = .idle := by
  rw [isBusy]
  cases s.phase <;> simp [Phase.isBusy]

/-- The state in which the host's access of a cycle takes effect: the entry is off the list, and no read answered yet. -/
def taken (rest : List HostOp) : State := { s with inputs := rest, readData := none }

theorem hostWrite_ctrl_srst {v : Word} (h : v.getLsbD 1 = true) : s.hostWrite 0x10 v = s.resetBlock := if_pos h

theorem hostWrite_ctrl_ie {v : Word} (h : v.getLsbD 1 = false) : s.hostWrite 0x10 v = { s with ie := v.getLsbD 0 } :=
  if_neg (h ▸ Bool.false_ne_true)

theorem hostWrite_pbuf {k : Nat} (hk : k < s.params.pbufWords) (v : Word) :
    s.hostWrite (0x100 + 8 * k) v = s.whenIdle { s with pbuf := s.pbuf.set k v } := by
  simp only [hostWrite, regAt_pbuf hk]

theorem whenIdle_taken (t : State) (rest : List HostOp) :
    (s.taken rest).whenIdle (t.taken rest) = (s.whenIdle t).taken rest := by
  cases hb : s.isBusy
  · rw [whenIdle_idle t hb, whenIdle_idle (s := s.taken rest) _ hb]
  · rw [whenIdle_busy t hb, whenIdle_busy (s := s.taken rest) _ hb]
    rfl

/-- A host write does not look at the host's list, nor at what was read before. -/
theorem hostWrite_taken (rest : List HostOp) (off : Nat) (v : Word) :
    (s.taken rest).hostWrite off v = (s.hostWrite off v).taken rest := by
  have hp : (s.taken rest).params = s.params := rfl
  rw [hostWrite, hostWrite, hp]
  cases regAt s.params off with
  | id | cfg | result | cmdCount | limb | reserved | status => rfl
  | cmd => exact s.whenIdle_taken (s.accept (v.setWidth 32)) rest
  | scalar => exact s.whenIdle_taken { s with scalar := v } rest
  | pbufLen => exact s.whenIdle_taken { s with pbufLen := v.setWidth 16 } rest
  | pbuf w => exact s.whenIdle_taken { s with pbuf := s.pbuf.set w v } rest
  | ctrl => dsimp only; split <;> rfl

end State

/-- What the host's half of a cycle keeps where it neither resets the block nor gives it a command: all that commands write, the
sequencer and the set-up, ERRCODE's tie to ERR, and while BUSY = 1 what a command reads (R36, R324). -/
structure HostKeeps (s u : State) : Prop where
  regs : u.regs = s.regs
  d0 : u.d0 = s.d0
  d1 : u.d1 = s.d1
  d2 : u.d2 = s.d2
  result : u.result = s.result
  cmdCount : u.cmdCount = s.cmdCount
  cmd : u.cmd = s.cmd
  phase : u.phase = s.phase
  setup : u.setup = s.setup
  image : u.pbuf.length = s.pbuf.length
  errors : (s.err = false ↔ s.errCode = .none) → (u.err = false ↔ u.errCode = .none)
  busy : s.isBusy = true → u.scalar = s.scalar ∧ u.pbuf = s.pbuf ∧ u.pbufLen = s.pbufLen

namespace HostKeeps

theorem refl (s : State) : HostKeeps s s :=
  ⟨rfl, rfl, rfl, rfl, rfl, rfl, rfl, rfl, rfl, rfl, fun h => h, fun _ => ⟨rfl, rfl, rfl⟩⟩

variable {s u : State}

/-- The host's list, what it reads, and the draws are not the block's. -/
theorem of_taken {rest : List HostOp} (h : HostKeeps (s.taken rest) u) : HostKeeps s u := { h with }

theorem flags (s : State) (ie overrun : Bool) : HostKeeps s { s with ie := ie, overrun := overrun } :=
  { refl s with }

theorem answer (s : State) (r : Option Word) (d : Nat) : HostKeeps s { s with readData := r, draws := d } :=
  { refl s with }

/-- W1C of STATUS clears ERRCODE with ERR (R36). -/
theorem writeStatus (s : State) (v : Word) : HostKeeps s (s.writeStatus v) :=
  { refl s with
    errors := fun h => by
      rw [State.writeStatus_err, State.writeStatus_errCode]
      cases v.getLsbD 2 <;> simp [h] }

/-- A write that BUSY = 1 drops (R324). -/
theorem whenIdle (h : s.isBusy = false → HostKeeps s u) : HostKeeps s (s.whenIdle u) := by
  cases hb : s.isBusy
  · rw [whenIdle_idle u hb]; exact h hb
  · rw [whenIdle_busy u hb]; exact flags s s.ie true

/-- A write to SCALAR or PBUF of an idle block. -/
theorem operands (hb : s.isBusy = false) (v : Word) {b : List Word} (hl : b.length = s.pbuf.length) (n : BitVec 16) :
    HostKeeps s { s with scalar := v, pbuf := b, pbufLen := n } :=
  { refl s with
    image := hl
    busy := fun h => absurd (hb ▸ h) Bool.false_ne_true }

end HostKeeps

/-- What a host write can do: reset the block, give an idle block a command, or keep what `HostKeeps` names (R38, R324,
R361). -/
theorem hostWrite_cases (s : State) (off : Nat) (v : Word) :
    s.hostWrite off v = s.resetBlock ∨
    (off = 0x20 ∧ s.isBusy = false ∧ s.hostWrite off v = s.accept (v.setWidth 32)) ∨
    HostKeeps s (s.hostWrite off v) := by
  cases hr : regAt s.params off <;> simp only [State.hostWrite, hr]
  case id | cfg | result | cmdCount | limb | reserved => exact .inr (.inr (.refl s))
  case status => exact .inr (.inr (.writeStatus s v))
  case scalar => exact .inr (.inr (.whenIdle fun hb => .operands hb v rfl _))
  case pbufLen => exact .inr (.inr (.whenIdle fun hb => .operands hb _ rfl _))
  case pbuf w => exact .inr (.inr (.whenIdle fun hb => .operands hb _ (List.length_set ..) _))
  case ctrl =>
    split
    · exact .inl rfl
    · exact .inr (.inr (.flags s _ s.overrun))
  case cmd =>
    cases hb : s.isBusy
    · exact .inr (.inl ⟨eq_of_regAt_cmd hr, rfl, whenIdle_idle _ hb⟩)
    · exact .inr (.inr (.whenIdle fun h => absurd (h ▸ hb) Bool.false_ne_true))

/-- An address in the window is BASE plus its offset (R70). -/
theorem addr_of_offsetOf {s : State} {addr off : Nat} (h : offsetOf s addr = some off) :
    addr = s.setup.platform.base + off := by
  simp only [offsetOf, Option.ite_none_right_eq_some, Option.some.injEq] at h
  omega

/-- What an access can do: a read keeps what `HostKeeps` names, and a write takes effect at an aligned offset, 8 bytes wide,
or does nothing (R72). -/
theorem access_next {s u : State} {a : Access} (h : s.access a = .next u) :
    HostKeeps s u ∨ ∃ off v, a = .write (s.setup.platform.base + off) 8 v ∧ u = s.hostWrite off v := by
  cases a with
  | read addr bytes =>
    left
    simp only [State.access] at h
    split at h
    · cases h
    · split at h <;> obtain rfl := Host.Outcome.next.inj h <;> exact .answer s _ _
  | write addr bytes v =>
    simp only [State.access] at h
    split at h
    · cases h
    next off hoff =>
      obtain rfl := Host.Outcome.next.inj h
      split
      next ht =>
        obtain ⟨rfl, -⟩ : bytes = 8 ∧ off % 8 = 0 := by simpa [accessTaken] using ht
        exact .inr ⟨off, v, by rw [addr_of_offsetOf hoff], rfl⟩
      next => exact .inl (.refl s)

/-- What the host's half of a cycle can do: reset the block, give an idle block a command, or keep what `HostKeeps` names. -/
theorem hostHalf_next {s u : State} (h : s.hostHalf = .next u) :
    u = State.resetOf s.setup s.inputs.tail s.draws ∨
    (∃ v rest, s.inputs = .access (.write (s.setup.platform.base + 0x20) 8 v) :: rest ∧ s.phase = .idle ∧
      u = (s.taken rest).accept (v.setWidth 32)) ∨
    HostKeeps s u := by
  have quiet (ins : List HostOp) (hu : s.hostHalf = .next (s.taken ins)) : HostKeeps s u := by
    obtain rfl := Host.Outcome.next.inj (hu.symm.trans h)
    exact .of_taken (.refl _)
  obtain ⟨-, hu⟩ | ⟨rest, -, hu⟩ | ⟨rest, -, -, hu⟩ | ⟨rest, -, -, hu⟩ | ⟨rest, hin, hu⟩ | ⟨a, rest, -, hu⟩ |
    ⟨a, rest, hin, hu⟩ := hostHalf_cases s
  · exact .inr (.inr (quiet s.inputs hu))
  · exact .inr (.inr (quiet rest hu))
  · exact .inr (.inr (quiet s.inputs hu))
  · exact .inr (.inr (quiet rest hu))
  · obtain rfl := Host.Outcome.next.inj (hu.symm.trans h)
    exact .inl (by rw [hin]; rfl)
  · cases hu.symm.trans h
  · obtain hk | ⟨off, v, rfl, rfl⟩ := access_next (s := s.taken rest) (hu.symm.trans h)
    · exact .inr (.inr hk.of_taken)
    · obtain hw | ⟨rfl, hb, hw⟩ | hw := hostWrite_cases (s.taken rest) off v
      · exact .inl (by rw [hw, hin]; rfl)
      · exact .inr (.inl ⟨v, rest, hin, s.isBusy_eq_false_iff.mp hb, hw⟩)
      · exact .inr (.inr hw.of_taken)

/-- What a cycle can do: reset the block; give an idle block a command, whose first cycle it is; or let the sequencer go on
(R38, R361, R368). -/
theorem step_cases {s t : State} (h : step s = .next t) :
    t = State.resetOf s.setup s.inputs.tail s.draws ∨
    (∃ v rest, s.inputs = .access (.write (s.setup.platform.base + 0x20) 8 v) :: rest ∧ s.phase = .idle ∧
      sequencerHalf ((s.taken rest).accept (v.setWidth 32)) = .next t) ∨
    ∃ u, HostKeeps s u ∧ sequencerHalf u = .next t := by
  obtain ⟨u, hu, ht⟩ := step_next h
  obtain rfl | ⟨v, rest, hin, hidle, rfl⟩ | hk := hostHalf_next hu
  · exact .inl (Host.Outcome.next.inj ht).symm
  · exact .inr (.inl ⟨v, rest, hin, hidle, ht⟩)
  · exact .inr (.inr ⟨u, hk, ht⟩)

/-- The sequencer's half of a cycle, once the next state is known. -/
theorem sequencerHalf_next {s t : State} (h : sequencerHalf s = .next t) :
    (s.phase = .idle ∧ t = s) ∨
    (∃ w left, s.phase = .busy w left ∧ left ≤ 1 ∧ runWord w s = .next t) ∨
    ∃ w left, s.phase = .busy w left ∧ 1 < left ∧ t = { s with phase := .busy w (left - 1) } := by
  obtain ⟨hp, hs⟩ | ⟨w, left, hp, hl, hs⟩ | ⟨w, left, hp, hl, hs⟩ := sequencerHalf_cases s
  · exact .inl ⟨hp, (Host.Outcome.next.inj (hs.symm.trans h)).symm⟩
  · exact .inr (.inl ⟨w, left, hp, hl, hs.symm.trans h⟩)
  · exact .inr (.inr ⟨w, left, hp, hl, (Host.Outcome.next.inj (hs.symm.trans h)).symm⟩)

theorem runWord_of_decode {w : CmdWord} {i : Instr} (h : decode w = some i) (s : State) : runWord w s = exec i s := by
  simp only [runWord, h]

/-- An accepted word completes, legal or not (R320, R322). -/
theorem runWord_completes (w : CmdWord) (s : State) : ∃ i, CompletesAs i s (runWord w s) := by
  cases h : decode w with
  | some i => exact ⟨i, runWord_of_decode h s ▸ exec_completes i s⟩
  | none =>
    refine ⟨.nop, ?_⟩
    simp only [runWord, h]
    exact .raise_illegal (.refl _ s)

theorem runWord_next {w : CmdWord} {s t : State} (h : runWord w s = .next t) :
    ∃ i u, ∃ c ∈ completions, t = u.complete c ∧ CommandWrites i s u := by
  obtain ⟨i, u, c, hc, hu, hw⟩ := runWord_completes w s
  exact ⟨i, u, c, hc, Host.Outcome.next.inj (h.symm.trans hu), hw⟩

end Machine

namespace Safety.Inv

/-- The invariant after reset (R49). -/
theorem resetOf {u : Setup} (h : u.params ∈ Params.decided) (ins : List HostOp) (d : Nat) : Inv (State.resetOf u ins d) where
  decided := h
  limbs := fun r => by rw [State.resetOf_elem]; exact length_scrubbed _
  scratch := ⟨rfl, rfl, rfl⟩
  image := List.length_replicate ..
  errors := ⟨fun _ => rfl, fun _ => rfl⟩
  running := fun _ _ h => by cases h

variable {s u : State} (h : Inv s)
include h

/-- A host access that neither resets the block nor gives it a command. -/
theorem hostKeeps (hk : HostKeeps s u) : Inv u := by
  have hp : u.params = s.params := congrArg Setup.params hk.setup
  have he (r : Reg) : u.elem r = s.elem r := congrArg (·.get r.toFin) hk.regs
  have hlat (w : CmdWord) : u.latency w = s.latency w := by simp only [State.latency, hp, hk.setup]
  exact
    { decided := hp ▸ h.decided
      limbs := fun r => by rw [he, hp]; exact h.limbs r
      scratch := by rw [hk.d0, hk.d1, hk.d2, hp]; exact h.scratch
      image := by rw [hk.image, hp]; exact h.image
      errors := hk.errors h.errors
      running := fun w left hb => by rw [hk.cmd, hlat]; exact h.running w left (hk.phase ▸ hb) }

/-- Acceptance of a command: CMD reads the word, and all of its LAT cycles are left (R38, R368). -/
theorem accept (w : CmdWord) : Inv (s.accept w) :=
  { h with
    running := fun w' left hb => by
      obtain ⟨rfl, rfl⟩ := Phase.busy.inj hb
      exact ⟨rfl, latency_pos s w, le_refl _⟩ }

/-- A cycle of BUSY that is not the last. -/
theorem count {w : CmdWord} {left : Nat} (hb : s.phase = .busy w left) (hl : 1 < left) :
    Inv { s with phase := .busy w (left - 1) } :=
  { h with
    running := fun w' left' hb' => by
      obtain ⟨rfl, rfl⟩ := Phase.busy.inj hb'
      obtain ⟨hcmd, -, hle⟩ := h.running w left hb
      exact ⟨hcmd, Nat.le_sub_one_of_lt hl, (Nat.sub_le ..).trans hle⟩ }

/-- A command's completion: the scratchpad is scrubbed, and ERRCODE is set with ERR (R288, R327). -/
theorem complete {i : Instr} (hw : CommandWrites i s u) {c : Completion} (hc : c ∈ completions) : Inv (u.complete c) := by
  have hp : u.params = s.params := congrArg Setup.params hw.frame.setup
  exact
    { decided := (congrArg (· ∈ Params.decided) hp).mpr h.decided
      limbs := fun r => (hw.limbs h.limbs r).trans (congrArg Params.numLimbs hp.symm)
      scratch := ⟨rfl, rfl, rfl⟩
      image := (hw.image h.image).trans (congrArg Params.pbufWords hp.symm)
      errors := by
        simp only [completions, List.mem_cons, List.not_mem_nil, or_false] at hc
        obtain rfl | rfl | rfl := hc
        · rw [State.complete_ok_err, State.complete_ok_errCode, hw.err, hw.errCode]
          exact h.errors
        · simp
        · simp
      running := fun _ _ hb => by cases hb }

theorem sequencerHalf (hs : sequencerHalf s = .next u) : Inv u := by
  obtain ⟨-, rfl⟩ | ⟨w, left, -, -, hr⟩ | ⟨w, left, hb, hl, rfl⟩ := sequencerHalf_next hs
  · exact h
  · obtain ⟨i, v, c, hc, rfl, hw⟩ := runWord_next hr
    exact h.complete hw hc
  · exact h.count hb hl

end Safety.Inv

/-- Settles O25, by what a cycle can do: each of a reset, an acceptance, a host access and a cycle of the sequencer keeps the
invariant. -/
theorem stepKeepsTheInvariant : Obligations.StepKeepsTheInvariant := by
  intro s t h hst
  obtain rfl | ⟨v, rest, -, -, ht⟩ | ⟨u, hk, ht⟩ := step_cases hst
  · exact .resetOf h.decided _ _
  · exact ((h.hostKeeps (.of_taken (.refl (s.taken rest)))).accept _).sequencerHalf ht
  · exact (h.hostKeeps hk).sequencerHalf ht

/-- Settles O28, by what a cycle can do. -/
theorem onlyCommandsAndResetWriteElements : Obligations.OnlyCommandsAndResetWriteElements := by
  intro s t hst
  obtain rfl | ⟨v, rest, hin, hidle, ht⟩ | ⟨u, hk, ht⟩ := step_cases hst
  · exact .inr (.inr rfl)
  · obtain ⟨hp, -⟩ | ⟨w, left, hp, hl, hr⟩ | ⟨w, left, -, -, rfl⟩ := sequencerHalf_next ht
    · cases hp
    · obtain ⟨rfl, rfl⟩ := Phase.busy.inj hp
      obtain ⟨i, x, c, -, rfl, hw⟩ := runWord_next hr
      have hlat : s.latency (v.setWidth 32) = 1 := le_antisymm hl (latency_pos s _)
      exact .inr (.inl ⟨_, (s.taken rest).accept _, .inr ⟨hidle, hlat, v, rest, rfl, hin⟩, rfl, rfl, rfl, rfl, rfl, rfl, hr,
        congrArg (· + 1) hw.cmdCount, rfl, rfl⟩)
    · exact .inl ⟨rfl, rfl, rfl⟩
  · obtain ⟨-, rfl⟩ | ⟨w, left, hp, hl, hr⟩ | ⟨w, left, -, -, rfl⟩ := sequencerHalf_next ht
    · exact .inl ⟨hk.regs, hk.result, hk.cmdCount⟩
    · have hs : s.phase = .busy w left := hk.phase ▸ hp
      obtain ⟨i, x, c, -, rfl, hw⟩ := runWord_next hr
      obtain ⟨hscalar, hpbuf, hlen⟩ := hk.busy (by rw [State.isBusy, hs]; rfl)
      exact .inr (.inl ⟨w, u, .inl ⟨left, hs, hl⟩, hk.regs, hk.result, hk.setup, hscalar, hpbuf, hlen, hr,
        (congrArg (· + 1) hw.cmdCount).trans (congrArg (· + 1) hk.cmdCount), rfl, rfl⟩)
    · exact .inl ⟨hk.regs, hk.result, hk.cmdCount⟩

/-- Settles O21: `State.reset` is the reset state of the reference set-up. -/
theorem resetStateIsAsStated : Obligations.ResetStateIsAsStated := isResetState_resetOf _ _ _

/-- Settles O24: every register is scrubbed after reset. -/
theorem resetMeetsTheInvariant : Obligations.ResetMeetsTheInvariant := fun u ins d hu =>
  ⟨.resetOf hu ins d, fun _ r => by
    rw [State.resetOf_elem, regDefined, Bool.or_eq_true, beq_iff_eq]
    exact .inr rfl⟩

end Sys2Proof
end

section
/-! PROOFS, cycles run one after another (10_state.md R38, R46, 70_reset_and_hazards.md R368, R370): the cycle of a host write,
a command from acceptance to completion under every latency, and the host's writes to an idle block (R74, R371). -/

namespace Sys2Proof

open Sys2Proof.Machine Sys2Proof.Safety

namespace Machine

theorem sequencerHalf_idle {s : State} (h : s.phase = .idle) : sequencerHalf s = .next s := by
  simp only [sequencerHalf, h]

theorem sequencerHalf_last {s : State} {w : CmdWord} (h : s.phase = .busy w 1) : sequencerHalf s = runWord w s := by
  simp only [sequencerHalf, h, le_refl, if_true]

theorem sequencerHalf_count {s : State} {w : CmdWord} {left : Nat} (h : s.phase = .busy w (left + 2)) :
    sequencerHalf s = .next { s with phase := .busy w (left + 1) } := by
  simp [sequencerHalf, h]

theorem step_of_hostHalf {s u : State} (h : s.hostHalf = .next u) : step s = sequencerHalf u := by
  simp only [step, h]

/-- The cycle of an aligned 64-bit write (R72). -/
theorem step_write {s : State} {off : Nat} {v : Word} {rest : List HostOp} (h : off < 0x2000) (h8 : off % 8 = 0)
    (hin : s.inputs = .access (.write (s.setup.platform.base + off) 8 v) :: rest) :
    step s = sequencerHalf ((s.hostWrite off v).taken rest) := by
  have hoff : offsetOf (s.taken rest) (s.setup.platform.base + off) = some off := offsetOf_base s h
  have hhost : s.hostHalf = (s.taken rest).access (.write (s.setup.platform.base + off) 8 v) := by
    simp only [State.hostHalf, hin, State.taken]
  refine step_of_hostHalf (hhost.trans ?_)
  simp [State.access, hoff, accessTaken, h8, State.hostWrite_taken]

/-- The cycle in which an idle block is given a command is the first of its LAT cycles of BUSY (R38, R368). -/
theorem step_accept {s : State} {v : Word} {rest : List HostOp} (hidle : s.phase = .idle)
    (hin : s.inputs = .access (.write (s.setup.platform.base + 0x20) 8 v) :: rest) :
    step s = sequencerHalf ((s.taken rest).accept (v.setWidth 32)) := by
  rw [step_write (by decide) (by decide) hin, ← State.hostWrite_taken]
  exact congrArg sequencerHalf (whenIdle_idle (s := s.taken rest) _ (s.isBusy_eq_false_iff.mpr hidle))

/-- A word that fails the decode of R106 completes with ILLEGAL, LEGQ where p ≡ 3 (mod 4) among them (R106, R322). -/
theorem runWord_illegal {w : CmdWord} {s : State} (h : decodeOn s.params w = none) : runWord w s = s.raise .illegal := by
  cases hd : decode w with
  | none => simp only [runWord, hd]
  | some i =>
    have hex : i.existsOn s.params = false := by simpa [decodeOn, hd] using h
    rw [runWord_of_decode hd]
    cases i with
    | legq r => exact if_neg (hex ▸ Bool.false_ne_true)
    | _ => cases hex

/-- UNPACK with too few bytes completes with SHAPE (R281, R282). -/
theorem exec_unpack_short {s : State} (rd : Reg) (h : s.pbufLen.toNat < s.params.packedBytes) :
    exec (.unpack rd) s = (s.setElem rd s.params.scrubbed).raise .shape := if_pos h

theorem run_of_step {s u : State} (h : step s = .next u) (k : Nat) : core.run (k + 1) s = core.run k u := by
  have hs : core.step s = .next u := h
  simp only [Host.Core.run, hs]

theorem run_congr {s s' : State} (h : step s = step s') (k : Nat) : core.run (k + 1) s = core.run (k + 1) s' := by
  have hs : core.step s = core.step s' := h
  simp only [Host.Core.run, hs]

/-- A run goes on from where it has come to. -/
theorem run_succ {k : Nat} {s t : State} (h : core.run k s = .next t) : core.run (k + 1) s = step t := by
  induction k generalizing s with
  | zero =>
    obtain rfl : s = t := Host.Outcome.next.inj h
    have hs : core.step s = step s := rfl
    simp only [Host.Core.run, hs]
    cases step s <;> rfl
  | succ k ih =>
    have hs : core.step s = step s := rfl
    cases hu : step s with
    | next u => rw [run_of_step hu] at h ⊢; exact ih h
    | fault r => simp [Host.Core.run, hs, hu] at h
    | refused r => simp [Host.Core.run, hs, hu] at h

/-- The block while the host waits for the command word `w`, with `left` cycles of BUSY to come. -/
def State.waiting (s : State) (w : CmdWord) (rest : List HostOp) (left : Nat) : State :=
  { s with inputs := .wait :: rest, readData := none, cmd := w, phase := .busy w left }

section Waiting

variable (s : State) (w : CmdWord) (rest : List HostOp)

/-- A waiting host does nothing while BUSY = 1 (R370). -/
theorem step_waiting (left : Nat) : step (s.waiting w rest left) = sequencerHalf (s.waiting w rest left) :=
  step_of_hostHalf rfl

theorem step_waiting_count (left : Nat) : step (s.waiting w rest (left + 2)) = .next (s.waiting w rest (left + 1)) :=
  (step_waiting s w rest _).trans (sequencerHalf_count rfl)

theorem step_waiting_last : step (s.waiting w rest 1) = runWord w (s.waiting w rest 1) :=
  (step_waiting s w rest 1).trans (sequencerHalf_last rfl)

/-- Only the count of cycles changes before a command's last cycle (R368). -/
theorem run_waiting (left : Nat) : ∀ j, core.run j (s.waiting w rest (left + j + 1)) = .next (s.waiting w rest (left + 1))
  | 0 => rfl
  | j + 1 => (run_of_step (step_waiting_count s w rest (left + j)) j).trans (run_waiting left j)

/-- The cycle of a wait that ends (R370). -/
theorem step_wait_idle {t : State} (hidle : t.phase = .idle) (hin : t.inputs = .wait :: rest) :
    step t = .next (t.taken rest) := by
  have hhost : t.hostHalf = .next (t.taken rest) := by
    simp [State.hostHalf, hin, t.isBusy_eq_false_iff.mpr hidle, State.taken]
  exact (step_of_hostHalf hhost).trans (sequencerHalf_idle hidle)

end Waiting

/-- The bits 15:0 that PBUF_LEN keeps of a word (R41). -/
theorem setWidth_setWidth_16 (v : Word) : (v.setWidth 16).setWidth 64 = v &&& 0xFFFF#64 := by
  apply BitVec.eq_of_toNat_eq
  rw [BitVec.toNat_setWidth, BitVec.toNat_setWidth, BitVec.toNat_and]
  have hmask := Nat.and_two_pow_sub_one_eq_mod v.toNat 16
  simp at hmask ⊢
  omega

namespace State

variable {s : State}

/-- Where the cycle before read nothing, only the host's list moves on. -/
theorem taken_of_quiet (t : State) (rest : List HostOp) (h : t.readData = none) :
    t.taken rest = { t with inputs := rest } := by
  rw [taken, ← h]

theorem ctrlWord_eq_and_one {v : Word} (h : s.ie = v.getLsbD 0) : s.ctrlWord = v &&& 1#64 :=
  BitVec.eq_of_getLsbD_eq fun i hi => by
    rw [ctrlWord_getLsbD, BitVec.getLsbD_and, BitVec.getLsbD_one, h]
    grind

/-- A write to PBUF[k] of an idle block is read back, and the other words keep their values (R41). -/
theorem hostRead_pbuf_set (hb : s.isBusy = false) (hl : s.pbuf.length = s.params.pbufWords) {j k : Nat}
    (hj : j < s.params.pbufWords) (v : Word) :
    hostRead { s with pbuf := s.pbuf.set k v } (0x100 + 8 * j) = if j = k then v else s.hostRead (0x100 + 8 * j) := by
  have hset : hostRead { s with pbuf := s.pbuf.set k v } (0x100 + 8 * j) = (s.pbuf.set k v).getD j 0#64 :=
    hostRead_pbuf (s := { s with pbuf := s.pbuf.set k v }) hb hj
  rw [hset, hostRead_pbuf hb hj, List.getD_eq_getElem _ _ (by rw [List.length_set]; omega),
    List.getD_eq_getElem _ _ (by omega), List.getElem_set]
  simp only [eq_comm]

end State

/-- A write to any offset but CMD leaves an idle block idle. -/
theorem hostWrite_idle {s : State} (hidle : s.phase = .idle) {off : Nat} (hoff : off ≠ 0x20) (v : Word) :
    (s.hostWrite off v).phase = .idle := by
  obtain hw | ⟨rfl, -, -⟩ | hk := hostWrite_cases s off v
  · rw [hw]; rfl
  · exact absurd rfl hoff
  · exact hk.phase.trans hidle

end Machine

/-- Settles O5: the word is accepted and, with LAT = 1, runs in the same cycle. -/
theorem stepRunsTheDecodedCommand : Obligations.StepRunsTheDecodedCommand := by
  intro s v i rest hidle hin hdec hlat
  have hphase : ((s.taken rest).accept (v.setWidth 32)).phase = .busy (v.setWidth 32) 1 :=
    congrArg (Phase.busy _) hlat
  rw [step_accept hidle hin, sequencerHalf_last hphase, runWord_of_decode hdec, ← hlat]
  rfl

/-- Settles O7: the cycles of the wait count down to the last one, in which the word runs. -/
theorem commandCompletesAfterItsLatency : Obligations.CommandCompletesAfterItsLatency := by
  intro s v rest hidle hin w accepted
  obtain ⟨n, hn⟩ : ∃ n, s.latency w = n + 1 := ⟨s.latency w - 1, by have := latency_pos s w; omega⟩
  have hrun : ∀ k, core.run (k + 1) s = core.run (k + 1) (s.waiting w rest (s.latency w)) :=
    run_congr ((step_accept hidle hin).trans (step_waiting s w rest _).symm)
  obtain ⟨i, u, c, -, hrw, hw⟩ := runWord_completes w accepted
  have hlast : core.run (s.latency w) s = .next (u.complete c) := by
    have hcount := run_waiting s w rest 0 n
    rw [Nat.zero_add] at hcount
    rw [hn, hrun n, hn, run_succ hcount]
    exact (step_waiting_last s w rest).trans hrw
  refine ⟨fun j hj hjl => ?_, u.complete c, hlast, rfl, rfl, congrArg (· + 1) hw.cmdCount, fun k hk => ?_,
    fun hill => ?_, ?_⟩
  · obtain ⟨m, rfl⟩ : ∃ m, j = m + 1 := ⟨j - 1, by omega⟩
    have hleft := run_waiting s w rest (n - (m + 1)) (m + 1)
    rw [Nat.sub_add_cancel (by omega), ← hn] at hleft
    exact ⟨_, (hrun m).trans hleft, rfl, rfl, rfl, rfl⟩
  · exact (runWord_of_decode hk accepted).symm.trans hrw
  · have hraise := (runWord_illegal (s := accepted) hill).symm.trans hrw
    rw [← Host.Outcome.next.inj hraise]
    have hnone : CommandWrites .nop accepted accepted := .refl _ _
    exact ⟨by simp only [State.latency, hill], { hnone.completed (.error .illegal) with },
      changesOnly_complete hnone.frame _, rfl⟩
  · have hwait : step (u.complete c) = .next ((u.complete c).taken rest) :=
      step_wait_idle (t := u.complete c) rest rfl hw.frame.inputs
    rw [(u.complete c).taken_of_quiet rest hw.frame.readData] at hwait
    exact (run_succ hlast).trans hwait

/-- Settles O8: the word runs on the state that has taken the host's write. -/
theorem hardwareSetWinsOverHostClear : Obligations.HardwareSetWinsOverHostClear := by
  intro s w v rest hbusy hin
  have hstep : step s = runWord w ((s.writeStatus v).taken rest) :=
    (step_write (by decide) (by decide) hin).trans (sequencerHalf_last hbusy)
  obtain ⟨i, u, c, -, hrw, -⟩ := runWord_completes w ((s.writeStatus v).taken rest)
  refine ⟨u.complete c, hstep.trans hrw, rfl, rfl, fun hill => ?_, fun rd hdec hshort => ?_⟩
  · have hraise := (runWord_illegal (s := (s.writeStatus v).taken rest) hill).symm.trans hrw
    rw [← Host.Outcome.next.inj hraise]
    exact ⟨rfl, rfl⟩
  · have hraise := (exec_unpack_short (s := (s.writeStatus v).taken rest) rd hshort).symm.trans
      ((runWord_of_decode hdec _).symm.trans hrw)
    rw [← Host.Outcome.next.inj hraise]
    exact ⟨rfl, rfl⟩

/-- Settles O12, offset by offset. -/
theorem idleWritesTakeEffect : Obligations.IdleWritesTakeEffect := by
  intro s v hp hidle
  have hb : s.isBusy = false := s.isBusy_eq_false_iff.mpr hidle
  have hscalar : s.hostWrite 0x28 v = { s with scalar := v } := whenIdle_idle _ hb
  have hlen : s.hostWrite 0x40 v = { s with pbufLen := v.setWidth 16 } := whenIdle_idle _ hb
  have hcmd : s.hostWrite 0x20 v = s.accept (v.setWidth 32) := whenIdle_idle _ hb
  have hpbuf {k : Nat} (hk : k < s.params.pbufWords) : s.hostWrite (0x100 + 8 * k) v = { s with pbuf := s.pbuf.set k v } :=
    (s.hostWrite_pbuf hk v).trans (whenIdle_idle _ hb)
  rw [← BitVec.setWidth_eq_extractLsb' (by decide), ← BitVec.setWidth_eq_extractLsb' (by decide)]
  refine ⟨⟨hscalar, ?_⟩, ⟨hlen, ?_⟩, fun k hk => ⟨hpbuf hk, fun hl j hj => ?_⟩, fun hv => ⟨s.hostWrite_ctrl_ie hv, ?_⟩,
    fun hv => ?_, ⟨hcmd, ?_⟩, fun off rest hlt h8 hoff hin => ?_⟩
  · rw [hscalar]; exact State.hostRead_eq rfl (.inr rfl)
  · rw [hlen, ← setWidth_setWidth_16]; exact State.hostRead_eq rfl (.inl hb)
  · rw [hpbuf hk, State.hostRead_pbuf_set hb hl hj]
  · rw [s.hostWrite_ctrl_ie hv, ← State.ctrlWord_eq_and_one (s := { s with ie := v.getLsbD 0 }) rfl]
    exact State.hostRead_eq rfl (.inr rfl)
  · rw [s.hostWrite_ctrl_srst hv]; exact isResetState_resetOf ..
  · rw [hcmd]; rfl
  · exact (step_write hlt h8 hin).trans (sequencerHalf_idle (hostWrite_idle hidle hoff v))

/-- Settles O20: both resets leave `State.resetOf`. -/
theorem softResetIsHardwareReset : Obligations.SoftResetIsHardwareReset := by
  intro s v rest hv
  refine ⟨State.resetOf s.setup rest s.draws, ?_, (step_of_hostHalf rfl).trans (sequencerHalf_idle rfl),
    isResetState_resetOf .., rfl, rfl, State.ctrlWord_srst _⟩
  have hreset := State.hostWrite_ctrl_srst
    { s with inputs := .access (.write (s.setup.platform.base + 0x10) 8 v) :: rest } hv
  rw [step_write (by decide) (by decide) rfl, hreset]
  exact sequencerHalf_idle rfl

end Sys2Proof
end

section
/-! PROOFS, what never changes, and PACK: the constants (10_state.md R42, R43, R45, R249), and the packed
image byte by byte (R41, 20_memory.md R75, R76, 44_pack_hygiene.md R283). -/

namespace Sys2Proof

open Sys2Proof.Machine Sys2Proof.Safety

namespace Machine

theorem sequencerHalf_setup {s t : State} (h : sequencerHalf s = .next t) : t.setup = s.setup := by
  obtain ⟨-, rfl⟩ | ⟨w, left, -, -, hr⟩ | ⟨w, left, -, -, rfl⟩ := sequencerHalf_next h
  · rfl
  · obtain ⟨i, u, c, -, rfl, hw⟩ := runWord_next hr
    exact hw.frame.setup
  · rfl

/-- No cycle changes the set-up (R363). -/
theorem step_setup {s t : State} (h : step s = .next t) : t.setup = s.setup := by
  obtain rfl | ⟨v, rest, -, -, ht⟩ | ⟨u, hk, ht⟩ := step_cases h
  · rfl
  · exact sequencerHalf_setup (s := (s.taken rest).accept _) ht
  · exact (sequencerHalf_setup ht).trans hk.setup

/-- The limbs of p in the constant store have the value p (R45). -/
theorem val_constP {p : Params} (hp : p.Sound) : val p (constP p) = p.prime := by
  have hpos := prime_pos hp
  have hprime := hp.prime_eq
  have hc : (0 : Int) ≤ p.c := Int.natCast_nonneg _
  have hn : (0 : Int) < 2 ^ p.n := by positivity
  apply val_chain hp <;> rw [pow_add] <;> omega

/-- The constant store holds no I where p ≡ 3 (mod 4) (R45). -/
theorem constI_of_three_mod_four {p : Params} (h : p.prime % 4 = 3) : constI p = none :=
  if_neg (by rw [Params.pclass, if_pos h]; decide)

/-- The constant store's I where p ≡ 5 (mod 8): Normalized, of value 2^((p−1)/4) mod p (R45, R249). -/
theorem constI_of_five_mod_eight {p : Params} (hp : p.Sound) (h : p.prime % 8 = 5) :
    ∃ L, constI p = some L ∧ wf p L = true ∧ normalized p L = true ∧
      val p L = (2 ^ ((p.prime - 1) / 4) % p.prime : Nat) := by
  have hclass : p.pclass = 2 := by rw [Params.pclass, if_neg (by omega), if_pos h]
  have hpow : powMod p.prime 2 (expQuartic p) = 2 ^ ((p.prime - 1) / 4) % p.prime := powMod_eq _ _ _ (by omega)
  obtain ⟨hwf, hval, hnorm⟩ := canon_spec hp (powMod p.prime 2 (expQuartic p) : Nat)
  refine ⟨_, if_pos hclass, hwf, hnorm, ?_⟩
  rw [hval, ← Int.natCast_emod, hpow, Nat.mod_mod]

/-- Byte `k` of a PBUF word given by its bytes (R76). -/
theorem extractLsb'_imageWord (byte : Nat → BitVec 8) (w : Nat) {k : Nat} (hk : k < 8) :
    (imageWord byte w).extractLsb' (8 * k) 8 = byte (8 * w + k) := by
  apply BitVec.eq_of_getLsbD_eq
  intro i hi
  interval_cases k <;>
    (simp only [imageWord, BitVec.getLsbD_extractLsb', BitVec.getLsbD_append]; grind)

/-- Byte `j` of an image given by its first PB bytes (R283). -/
theorem pbufByte_of_imageWords {t : State} {p : Params} {byte : Nat → BitVec 8} (h : t.pbuf = imageWords p byte) (j : Nat) :
    t.pbufByte j = if j < p.packedBytes then byte j else 0#8 := by
  have hj : 8 * (j / 8) + j % 8 = j := Nat.div_add_mod j 8
  rw [State.pbufByte, h, imageWords]
  by_cases hw : j / 8 < p.pbufWords
  · rw [List.getD_eq_getElem _ _ (by simpa using hw), List.getElem_map, List.getElem_range,
      extractLsb'_imageWord _ _ (Nat.mod_lt _ (by decide)), hj]
  · have hlt : ¬j < p.packedBytes := by rw [Params.pbufWords] at hw; omega
    rw [List.getD_eq_default _ _ (by simpa using hw), if_neg hlt]
    simp

theorem toNat_valueByte (v j : Nat) : (valueByte v j).toNat = v / 2 ^ (8 * j) % 256 := BitVec.toNat_ofNat ..

/-- The value that PACK writes: the residue of its operand (R283). -/
theorem val_canon_elemVal {s : State} (hp : s.params.Sound) (r : Reg) :
    (val s.params (canon s.params (s.elemVal r))).toNat = s.elemResidue r := by
  obtain ⟨-, hval, -⟩ := canon_spec hp (s.elemVal r)
  rw [hval, State.elemResidue, residue, State.elemVal]

/-- PACK of a WF register writes the image of its residue: what it stages is scrubbed on completion (R283, R288). -/
theorem exec_pack_of_ok {s : State} (hp : s.params.Sound) {r : Reg} (h : s.operandOk r = true) :
    exec (.pack r) s = .next ((s.writeImage (valueByte (s.elemResidue r))).complete .ok) := by
  rw [← val_canon_elemVal hp]
  exact if_pos h

end Machine

/-- PB fits PBUF_LEN on the decided sets (R41). -/
theorem Params.decided_packedBytes_lt : ∀ p ∈ Params.decided, p.packedBytes < 2 ^ 16 := by decide

/-- Settles O27: the constants are functions of the set-up alone. -/
theorem stepKeepsTheConstants : Obligations.StepKeepsTheConstants := by
  refine ⟨fun s t h => ?_, fun p hp => ?_⟩
  · have hsetup := step_setup h
    have hparams : t.params = s.params := congrArg Setup.params hsetup
    rw [hparams]
    exact ⟨rfl, rfl, rfl, rfl, rfl, hsetup⟩
  · have hs := Params.sound_of_decided hp
    exact ⟨⟨rfl, val_constP hs⟩, constI_of_three_mod_four, constI_of_five_mod_eight hs⟩

/-- Settles O42: the bytes of the image are those of the residue. -/
theorem packResult : Obligations.PackResult := by
  intro s rs1 hp hok
  have hw : CommandWrites (.pack rs1) s (s.writeImage (valueByte (s.elemResidue rs1))) := .writeImage rfl _
  refine ⟨_, exec_pack_of_ok (Params.sound_of_decided hp) hok, hw.completed .ok, changesOnly_complete hw.frame .ok, rfl,
    fun j hj => ?_, fun j hj => ?_, by simp [imageWords], Nat.mod_eq_of_lt (Params.decided_packedBytes_lt _ hp)⟩
  · rw [pbufByte_of_imageWords rfl, if_pos hj, toNat_valueByte]
  · rw [pbufByte_of_imageWords rfl, if_neg (Nat.not_lt.mpr hj)]

end Sys2Proof
end

section
/-! PROOFS, the register window (20_memory.md R71 to R74, R83): which offsets are reserved, read-only, or free to read while
BUSY = 1, what one read leaves and answers, and that no command sees what the host has read; and UNPACK, the image's value
from its bytes (R75, 44_pack_hygiene.md R281, R282). -/

namespace Sys2Proof

open Sys2Proof.Machine Sys2Proof.Safety

namespace Machine

/-- The registers whose reads R83 leaves free while BUSY = 1, by their offsets (R71). -/
theorem regAt_freeWhileBusy_iff (p : Params) (off : Nat) :
    (regAt p off).freeWhileBusy = true ↔
      off = 0x30 ∨ off = 0x40 ∨ (0x100 ≤ off ∧ off < 0x100 + 8 * p.pbufWords) ∨
        (0x1000 ≤ off ∧ off < 0x1000 + 8 * (16 * p.numLimbs)) := by
  unfold regAt Params.numRegs
  repeat' split
  all_goals simp only [HostReg.freeWhileBusy, Bool.false_eq_true, true_iff, false_iff]; omega

/-- The reserved offsets: between PBUF_LEN and PBUF, between PBUF and the limbs, and after the limbs (R71, R73). -/
theorem regAt_reserved {p : Params} (hp : 0x100 + 8 * p.pbufWords ≤ 0x1000) {off : Nat}
    (h : (0x48 ≤ off ∧ off < 0x100) ∨ (0x100 + 8 * p.pbufWords ≤ off ∧ off < 0x1000) ∨
      0x1000 + 8 * (16 * p.numLimbs) ≤ off) : regAt p off = .reserved := by
  unfold regAt Params.numRegs
  repeat rw [if_neg (by omega)]

/-- The offsets of the limbs (R71). -/
theorem regAt_limbs {p : Params} (hp : 0x100 + 8 * p.pbufWords ≤ 0x1000) {off : Nat} (hlo : 0x1000 ≤ off)
    (hhi : off < 0x1000 + 8 * (16 * p.numLimbs)) : ∃ r i, regAt p off = .limb r i := by
  unfold regAt Params.numRegs
  repeat rw [if_neg (by omega)]
  exact ⟨_, _, if_pos ⟨hlo, hhi⟩⟩

/-- Registers that ignore a host write (R73). -/
def HostReg.ignoresWrites : HostReg → Bool
  | .id | .cfg | .result | .cmdCount | .limb _ _ | .reserved => true
  | .ctrl | .status | .cmd | .scalar | .pbufLen | .pbuf _ => false

/-- BUSY or not, a write to such a register changes nothing (R73). -/
theorem State.hostWrite_ignored {s : State} {off : Nat} {r : HostReg} (hr : regAt s.params off = r)
    (h : r.ignoresWrites = true) (v : Word) : s.hostWrite off v = s := by
  cases r with
  | id | cfg | result | cmdCount | limb | reserved => simp only [State.hostWrite, hr]
  | ctrl | status | cmd | scalar | pbufLen | pbuf => cases h

/-- The one kind of access that is taken (R72). -/
theorem accessTaken_iff {off bytes : Nat} : accessTaken off bytes = true ↔ bytes = 8 ∧ off % 8 = 0 := by
  simp [accessTaken]

namespace State

variable (s : State)

/-- The state with another answer of the cycle's read. -/
def answer (r : Option Word) : State := { s with readData := r }

/-- What a read of any width and alignment answers: HostRead where it is taken, and 0 otherwise (R72). -/
def readAnswer (off bytes : Nat) : Word := if accessTaken off bytes then s.hostRead off else 0#64

/-- The draws after such a read: one more where it answered a free value (R83). -/
def drawsAfterRead (off bytes : Nat) : Nat := if accessTaken off bytes then (s.afterRead off).draws else s.draws

/-- A read changes nothing but its answer and the count of draws (R72, R74). -/
theorem access_read {off : Nat} (h : off < 0x2000) (bytes : Nat) :
    s.access (.read (s.setup.platform.base + off) bytes) =
      .next (answer { s with draws := s.drawsAfterRead off bytes } (some (s.readAnswer off bytes))) := by
  rw [access, offsetOf_base s h]
  cases ht : accessTaken off bytes <;> simp [readAnswer, drawsAfterRead, ht, answer, afterRead]

/-- A write has its effect where it is taken (R72). -/
theorem access_write {off : Nat} (h : off < 0x2000) (bytes : Nat) (v : Word) :
    s.access (.write (s.setup.platform.base + off) bytes v) =
      .next (if accessTaken off bytes then s.hostWrite off v else s) := by
  rw [access, offsetOf_base s h]

variable {s} {off bytes : Nat}

theorem readAnswer_taken (h : bytes = 8 ∧ off % 8 = 0) : s.readAnswer off bytes = s.hostRead off :=
  if_pos (accessTaken_iff.mpr h)

theorem readAnswer_not_taken (h : ¬(bytes = 8 ∧ off % 8 = 0)) : s.readAnswer off bytes = 0#64 :=
  if_neg fun ht => h (accessTaken_iff.mp ht)

/-- A read that R83 makes free answers the next draw, and uses it (R83, R371). -/
theorem hostRead_free (hb : s.isBusy = true) (hf : (regAt s.params off).freeWhileBusy = true) :
    s.hostRead off = Config.freeRead s.draws ∧ (s.afterRead off).draws = s.draws + 1 := by
  simp [hostRead, hb, hf]

/-- So does such a read of the bus, where it is taken. -/
theorem drawsAfterRead_free (h : bytes = 8 ∧ off % 8 = 0) (hb : s.isBusy = true)
    (hf : (regAt s.params off).freeWhileBusy = true) : s.drawsAfterRead off bytes = s.draws + 1 :=
  (if_pos (accessTaken_iff.mpr h)).trans (hostRead_free hb hf).2

/-- Every other read uses none. -/
theorem drawsAfterRead_kept
    (h : ¬((bytes = 8 ∧ off % 8 = 0) ∧ s.isBusy = true ∧ (regAt s.params off).freeWhileBusy = true)) :
    s.drawsAfterRead off bytes = s.draws := by
  rw [drawsAfterRead]
  split
  next ht => exact if_neg fun hf => h ⟨accessTaken_iff.mp ht, Bool.and_eq_true_iff.mp hf⟩
  next => rfl

/-- The same read of an idle block, made again, answers the same and changes nothing. -/
theorem access_read_again (hb : s.isBusy = false) (h : off < 0x2000) :
    (s.answer (some (s.readAnswer off bytes))).access (.read (s.setup.platform.base + off) bytes) =
      .next (s.answer (some (s.readAnswer off bytes))) := by
  have hdraws : (s.answer (some (s.readAnswer off bytes))).drawsAfterRead off bytes = s.draws :=
    drawsAfterRead_kept (s := s.answer _) fun ⟨_, hb', _⟩ => Bool.false_ne_true (hb.symm.trans hb')
  have hread := (s.answer (some (s.readAnswer off bytes))).access_read h bytes
  rw [hdraws] at hread
  exact hread

end State

/-- The packed image does not depend on what the host has read (R75). -/
theorem imageValue_answer (s : State) (r : Option Word) : ∀ k, (s.answer r).imageValue k = s.imageValue k
  | 0 => rfl
  | k + 1 => congrArg (· + (s.pbufByte k).toNat * 2 ^ (8 * k)) (imageValue_answer s r k)

/-- Two runs that end alike, but for what the host read before. -/
def AnswerApart (r : Option Word) (o o' : Host.Outcome State Fault Refusal) : Prop :=
  ∃ t, o = .next t ∧ o' = .next (t.answer r)

/-- Two runs that decide a check alike. -/
theorem AnswerApart.ite {r : Option Word} {c : Prop} [Decidable c] {o p o' p' : Host.Outcome State Fault Refusal}
    (h : AnswerApart r o o') (h' : AnswerApart r p p') : AnswerApart r (if c then o else p) (if c then o' else p') := by
  split <;> assumption

/-- No command looks at what the host has read, or changes it: each check is of fields that stay, and so is each result. -/
theorem exec_answer (i : Instr) (s : State) (r : Option Word) : AnswerApart r (exec i s) (exec i (s.answer r)) := by
  cases i with
  | nop | mov | scrub => exact ⟨_, rfl, rfl⟩
  | add | sub | mul | sqr | neg | reduce | norm | inv | div | sqrt | isqrt | leg | iszero | cmpeq | pack | seti =>
    exact .ite ⟨_, rfl, rfl⟩ ⟨_, rfl, rfl⟩
  | unpack rd =>
    have himage := imageValue_answer s r s.params.packedBytes
    refine .ite ⟨_, rfl, rfl⟩ ⟨_, rfl, ?_⟩
    exact congrArg (fun n : Nat => ((s.answer r).setElem rd (chain s.params n)).finish) himage
  | adds | subs | muls | legq => exact .ite (.ite ⟨_, rfl, rfl⟩ ⟨_, rfl, rfl⟩) ⟨_, rfl, rfl⟩

/-- The same for an accepted word, legal or not. -/
theorem runWord_answer (w : CmdWord) (s : State) (r : Option Word) :
    AnswerApart r (runWord w s) (runWord w (s.answer r)) := by
  rw [runWord, runWord]
  cases decode w with
  | some i => exact exec_answer i s r
  | none => exact ⟨_, rfl, rfl⟩

/-- The same for the sequencer's half of a cycle. -/
theorem sequencerHalf_answer (s : State) (r : Option Word) :
    AnswerApart r (sequencerHalf s) (sequencerHalf (s.answer r)) := by
  have hphase : (s.answer r).phase = s.phase := rfl
  rw [sequencerHalf, sequencerHalf, hphase]
  cases s.phase with
  | idle => exact ⟨s, rfl, rfl⟩
  | busy w left => exact .ite (runWord_answer w s r) ⟨_, rfl, rfl⟩

/-- The cycle of a read (R72, R74). -/
theorem step_read {s : State} {off bytes : Nat} {rest : List HostOp} (h : off < 0x2000)
    (hin : s.inputs = .access (.read (s.setup.platform.base + off) bytes) :: rest) :
    step s = sequencerHalf
      (State.answer { s.taken rest with draws := s.drawsAfterRead off bytes } (some (s.readAnswer off bytes))) := by
  have hhost : s.hostHalf = (s.taken rest).access (.read (s.setup.platform.base + off) bytes) := by
    simp only [State.hostHalf, hin, State.taken]
  exact step_of_hostHalf (hhost.trans ((s.taken rest).access_read h bytes))

/-- The image's value is the sum of its bytes at their places (R75). -/
theorem imageValue_eq_sum (s : State) : ∀ k,
    (s.imageValue k : Int) = ((List.range k).map fun j => ((s.pbufByte j).toNat : Int) * 2 ^ (8 * j)).sum
  | 0 => rfl
  | k + 1 => by
    rw [List.range_succ, List.map_append, List.sum_append, ← imageValue_eq_sum s k]
    simp [State.imageValue]

/-- `k` bytes hold a value below 2^(8k). -/
theorem imageValue_lt (s : State) : ∀ k, s.imageValue k < 2 ^ (8 * k)
  | 0 => Nat.one_pos
  | k + 1 => by
    have hlow : s.imageValue k < 2 ^ (8 * k) := imageValue_lt s k
    have hbyte : (s.pbufByte k).toNat + 1 ≤ 2 ^ 8 := (s.pbufByte k).isLt
    calc s.imageValue k + (s.pbufByte k).toNat * 2 ^ (8 * k)
        < ((s.pbufByte k).toNat + 1) * 2 ^ (8 * k) := by rw [Nat.succ_mul (s.pbufByte k).toNat]; omega
      _ ≤ 2 ^ 8 * 2 ^ (8 * k) := Nat.mul_le_mul_right _ hbyte
      _ = 2 ^ (8 * (k + 1)) := by rw [← pow_add, Nat.mul_succ, Nat.add_comm]

/-- The value of the PB bytes is in the WF range: they have at most two bits more than n (R8(e), R144). -/
theorem imageValue_range {s : State} (hp : s.params.Sound) :
    -(2 : Int) ^ (s.params.n + 2) ≤ s.imageValue s.params.packedBytes ∧
      (s.imageValue s.params.packedBytes : Int) < 2 ^ (s.params.n + 2) := by
  have hlt : s.imageValue s.params.packedBytes < 2 ^ (s.params.n + 2) :=
    (imageValue_lt s _).trans_le (Nat.pow_le_pow_right (by decide) hp.packed)
  have hpos : (0 : Int) ≤ 2 ^ (s.params.n + 2) := by positivity
  exact ⟨by omega, by exact_mod_cast hlt⟩

/-- UNPACK with enough bytes writes the image's value, chained (R281). -/
theorem exec_unpack_full {s : State} (rd : Reg) (h : s.params.packedBytes ≤ s.pbufLen.toNat) :
    exec (.unpack rd) s =
      .next ((s.setElem rd (chain s.params (s.imageValue s.params.packedBytes))).complete .ok) := if_neg (by omega)

end Machine

/-- Settles O13, by the register that the map has at the offset. -/
theorem reservedAndReadOnlyOffsets : Obligations.ReservedAndReadOnlyOffsets := by
  intro s off v hp _ _
  have hbelow := decided_pbuf_below_limbs _ hp
  refine ⟨fun h => ?_, fun h => ?_⟩
  · have hr := regAt_reserved hbelow h
    exact ⟨State.hostRead_eq hr (.inr rfl), State.hostWrite_ignored hr rfl v⟩
  · obtain hmem | ⟨hlo, hhi⟩ := h
    · simp only [List.mem_cons, List.not_mem_nil, or_false] at hmem
      obtain rfl | rfl | rfl | rfl := hmem <;> exact State.hostWrite_ignored rfl rfl v
    · obtain ⟨r, i, hr⟩ := regAt_limbs hbelow hlo hhi
      exact State.hostWrite_ignored hr rfl v

/-- Settles O16: the offsets of the data registers are those that R83 leaves free, and the others answer their values. -/
theorem busyReadsAreFreeDraws : Obligations.BusyReadsAreFreeDraws := by
  intro s _ hb
  refine ⟨fun off h => State.hostRead_free hb ((regAt_freeWhileBusy_iff _ _).mpr ?_), ?_⟩
  · simp only [List.mem_cons, List.not_mem_nil, or_false] at h
    obtain (h | h) | ⟨w, hw, rfl⟩ | ⟨k, hk, rfl⟩ := h
    · exact .inl h
    · exact .inr (.inl h)
    · exact .inr (.inr (.inl (by omega)))
    · exact .inr (.inr (.inr (by omega)))
  · refine ⟨?_, ?_, ?_, ?_, ?_, ?_, ?_⟩ <;> exact State.hostRead_eq rfl (.inr rfl)

/-- Settles O17: the host's half of a read leaves the answer and the draws, and the sequencer's half does not look at the
answer. -/
theorem readsHaveNoSideEffect : Obligations.ReadsHaveNoSideEffect := by
  intro s off bytes rest hlt hin taken free
  obtain ⟨t, hquiet, hread⟩ := sequencerHalf_answer { s.taken rest with draws := s.drawsAfterRead off bytes }
    (some (s.readAnswer off bytes))
  have hkept (h : ¬free) : s.drawsAfterRead off bytes = s.draws :=
    State.drawsAfterRead_kept fun ⟨ht, hb, hf⟩ => h ⟨ht, hb, (regAt_freeWhileBusy_iff _ _).mp hf⟩
  have hdrawn (h : free) : s.drawsAfterRead off bytes = s.draws + 1 :=
    have ⟨ht, hb, hf⟩ := h
    State.drawsAfterRead_free ht hb ((regAt_freeWhileBusy_iff _ _).mpr hf)
  refine ⟨_, _, t, (step_of_hostHalf rfl).trans hquiet, (step_read hlt hin).trans hread, State.readAnswer_taken,
    State.readAnswer_not_taken, hdrawn, hkept, fun hb => ⟨?_, ?_⟩⟩
  · have hdraws : s.drawsAfterRead off bytes = s.draws := hkept fun ⟨_, hb', _⟩ => Bool.false_ne_true (hb.symm.trans hb')
    have hstay := sequencerHalf_idle (s := { s.taken rest with draws := s.drawsAfterRead off bytes })
      (s.isBusy_eq_false_iff.mp hb)
    rw [← Host.Outcome.next.inj (hstay.symm.trans hquiet), hdraws]
    rfl
  · exact State.access_read_again (s := { s with inputs := rest }) hb hlt

/-- Settles O41: the image's value is in the WF range, where chaining keeps the value. -/
theorem unpackResult : Obligations.UnpackResult := by
  intro s rd hp
  have hs := Params.sound_of_decided hp
  obtain ⟨hlo, hhi⟩ := imageValue_range hs
  have writes {L : Element} (hL : L.length = s.params.numLimbs) : CommandWrites (.unpack rd) s (s.setElem rd L) :=
    .setElem rfl fun _ => hL
  refine ⟨fun h => ?_, fun h => ?_⟩
  · have hw := writes (length_chain s.params (s.imageValue s.params.packedBytes))
    refine ⟨_, exec_unpack_full rd h, ⟨hw.completed .ok, changesOnly_complete hw.frame .ok, rfl⟩, ?_, ?_⟩ <;>
      rw [State.complete_ok_elem, State.setElem_elem_same]
    · exact wf_chain hs hlo hhi
    · rw [val_chain hs hlo hhi, imageValue_eq_sum]
  · have hw := writes (length_scrubbed s.params)
    refine ⟨_, exec_unpack_short rd h, hw.completed _, changesOnly_complete hw.frame _, rfl, ?_⟩
    rw [State.complete_error_elem, State.setElem_elem_same]
    rfl

/-- Settles O14: an access that is not taken writes nothing, draws nothing and answers 0. -/
theorem otherWidthsAndAlignmentsDoNothing : Obligations.OtherWidthsAndAlignmentsDoNothing := by
  intro s off bytes v hlt h
  have hnot : ¬(bytes = 8 ∧ off % 8 = 0) := by omega
  refine ⟨?_, ?_⟩
  · rw [s.access_write hlt, if_neg (mt accessTaken_iff.mp hnot)]
  · rw [s.access_read hlt, State.readAnswer_not_taken hnot, State.drawsAfterRead_kept fun h => hnot h.1]
    rfl

end Sys2Proof
end

section
/-! PROOFS, the encoding (30_encoding.md R101 to R107): a command word as its fields, what a format's mask tests of them, and
the opcode map read both ways; then the cycle in which a word that fails decode is given. -/

namespace Sys2Proof

open Sys2Proof.Machine Sys2Proof.Safety

/-- The fields of a command word, from bit 31 down (R101). -/
theorem word_eq_append_fields (w : CmdWord) :
    w = w.extractLsb' 20 12 ++ rs2Field w ++ rs1Field w ++ rdField w ++ opcodeField w := by
  simp only [rs2Field, rs1Field, rdField, opcodeField,
    BitVec.extractLsb'_append_extractLsb'_eq_extractLsb', BitVec.extractLsb'_eq_self]

theorem bitVec_append_inj {m n : Nat} {a c : BitVec m} {b d : BitVec n} : a ++ b = c ++ d ↔ a = c ∧ b = d := by
  refine ⟨fun h => ⟨?_, ?_⟩, fun ⟨ha, hb⟩ => by rw [ha, hb]⟩
  · simpa only [BitVec.extractLsb'_append_eq_left] using congrArg (BitVec.extractLsb' n m) h
  · simpa only [BitVec.extractLsb'_append_eq_right] using congrArg (BitVec.extractLsb' 0 n) h

namespace Format

/-- Whether a command of this format has a register in the rd field (R102). -/
def usesRd : Format → Bool
  | .r3 | .r2 | .r1d => true
  | .r1s | .r2s | .r0 => false

/-- Whether it has one in the rs1 field. -/
def usesRs1 : Format → Bool
  | .r3 | .r2 | .r1s | .r2s => true
  | .r1d | .r0 => false

/-- Whether it has one in the rs2 field. -/
def usesRs2 : Format → Bool
  | .r3 | .r2s => true
  | .r2 | .r1d | .r1s | .r0 => false

/-- The bits of a register field that must be 0: none where the field is used, and otherwise all (R107(c)). -/
def fieldMask (used : Bool) : Reg := if used then 0#4 else BitVec.allOnes 4

/-- A register field of a command of the format: its register where it is used, and otherwise 0 (R102). -/
def field (used : Bool) (r : Reg) : Reg := if used then r else 0#4

theorem field_ne_self_iff {used : Bool} {r : Reg} : field used r ≠ r ↔ r ≠ 0#4 ∧ used = false := by
  cases used with
  | false => exact ne_comm.trans (and_iff_left rfl).symm
  | true => exact iff_of_false (not_not_intro rfl) fun h => Bool.true_eq_false.mp h.2

theorem and_fieldMask {used : Bool} {r : Reg} : r &&& fieldMask used = 0#4 ↔ field used r = r := by
  cases used with
  | false => exact (BitVec.and_allOnes (x := r)).symm ▸ eq_comm
  | true => exact iff_of_true BitVec.and_zero rfl

/-- A format's mask, field by field. -/
theorem mask_eq_append (f : Format) :
    f.mask = BitVec.allOnes 12 ++ fieldMask f.usesRs2 ++ fieldMask f.usesRs1 ++ fieldMask f.usesRd ++ BitVec.allOnes 8 := by
  cases f <;> rfl

/-- A word laid out from its fields keeps its opcode alone under the mask where the other fields that the format does not
use are 0. -/
theorem append_and_mask_iff (f : Format) (hi : BitVec 12) (rs2 rs1 rd : Reg) (op : BitVec 8) :
    (hi ++ rs2 ++ rs1 ++ rd ++ op) &&& f.mask = op.setWidth 32 ↔
      hi = 0#12 ∧ field f.usesRs2 rs2 = rs2 ∧ field f.usesRs1 rs1 = rs1 ∧ field f.usesRd rd = rd := by
  have opcode_word : op.setWidth 32 = 0#12 ++ 0#4 ++ 0#4 ++ 0#4 ++ op := BitVec.setWidth_eq_append (by decide)
  rw [mask_eq_append, opcode_word, BitVec.and_append, BitVec.and_append, BitVec.and_append, BitVec.and_append]
  simp only [bitVec_append_inj, BitVec.and_allOnes, and_fieldMask, and_true, and_assoc]

/-- A word matches its opcode row where bits [31:20] and the fields that the format does not use are 0 (R102, R107). -/
theorem and_mask_eq_iff (f : Format) (w : CmdWord) :
    w &&& f.mask = (opcodeField w).setWidth 32 ↔
      w.extractLsb' 20 12 = 0#12 ∧ field f.usesRs2 (rs2Field w) = rs2Field w ∧
        field f.usesRs1 (rs1Field w) = rs1Field w ∧ field f.usesRd (rdField w) = rdField w := by
  rw [← append_and_mask_iff, ← word_eq_append_fields]

end Format

/-- The opcode map read backwards (R105): the command of a row has the row's opcode and format, and its word is laid out
from the register fields that it uses. -/
theorem of_opcodeRow {op : BitVec 8} {rd rs1 rs2 : Reg} {f : Format} {i : Instr}
    (h : opcodeRow op rd rs1 rs2 = some (f, i)) :
    i.opcode = op ∧ i.format = f ∧
      encode i = layout op (Format.field f.usesRd rd) (Format.field f.usesRs1 rs1) (Format.field f.usesRs2 rs2) := by
  unfold opcodeRow at h
  split at h <;> cases h <;> exact ⟨rfl, rfl, rfl⟩

/-- The opcode map read forwards: the row that the word of a command points to is the command's own (R105). -/
theorem opcodeRow_encode (i : Instr) :
    opcodeRow i.opcode (rdField (encode i)) (rs1Field (encode i)) (rs2Field (encode i)) = some (i.format, i) := by
  cases i <;> simp only [encode, rdField_layout, rs1Field_layout, rs2Field_layout] <;> rfl

/-- Every word of a command carries its opcode, and matches it under the mask of its format. -/
theorem encodesOpcode (i : Instr) : Laws.EncodesOpcode.Statement i := by
  open Laws.EncodesOpcode in
  cases i with
  | nop => exact nop
  | add => exact add ..
  | sub => exact sub ..
  | neg => exact neg ..
  | adds => exact adds ..
  | subs => exact subs ..
  | mul => exact mul ..
  | sqr => exact sqr ..
  | muls => exact muls ..
  | reduce => exact reduce ..
  | norm => exact norm ..
  | inv => exact inv ..
  | div => exact div ..
  | sqrt => exact sqrt ..
  | isqrt => exact isqrt ..
  | leg => exact leg ..
  | legq => exact legq ..
  | unpack => exact unpack ..
  | pack => exact pack ..
  | mov => exact mov ..
  | seti => exact seti ..
  | scrub => exact scrub ..
  | cmpeq => exact cmpeq ..
  | iszero => exact iszero ..

/-- When a word decodes (R106, without its LEGQ line): its row is that of the command, and its mask matches. -/
theorem decode_eq_some_iff {w : CmdWord} {i : Instr} :
    decode w = some i ↔ ∃ f, opcodeRow (opcodeField w) (rdField w) (rs1Field w) (rs2Field w) = some (f, i) ∧
      w &&& f.mask = (opcodeField w).setWidth 32 := by
  unfold decode
  split
  · next hrow => simp [hrow]
  · next f j hrow => simp [hrow, and_comm]

theorem decode_encode (i : Instr) : decode (encode i) = some i := by
  obtain ⟨hop, hmask⟩ := encodesOpcode i
  exact decode_eq_some_iff.mpr ⟨i.format, by rw [hop, opcodeRow_encode], by rw [hop, hmask]⟩

theorem encode_of_decode {w : CmdWord} {i : Instr} (h : decode w = some i) : encode i = w := by
  obtain ⟨f, hrow, hmask⟩ := decode_eq_some_iff.mp h
  obtain ⟨hhi, hrs2, hrs1, hrd⟩ := (f.and_mask_eq_iff w).mp hmask
  rw [(of_opcodeRow hrow).2.2, hrd, hrs1, hrs2, layout, ← hhi, ← word_eq_append_fields]

/-- The opcodes with no row (R107(a)). -/
theorem opcodeRow_eq_none_iff {op : BitVec 8} {rd rs1 rs2 : Reg} :
    opcodeRow op rd rs1 rs2 = none ↔
      op ∈ [0x06#8, 0x07#8, 0x0B#8, 0x0E#8, 0x0F#8, 0x16#8, 0x17#8, 0x1A#8, 0x1B#8, 0x1F#8] ∨ 0x22 ≤ op.toNat := by
  unfold opcodeRow
  split
  case h_25 =>
    refine iff_of_true rfl ?_
    simp only [imp_false, ← BitVec.toNat_inj, BitVec.toNat_ofNat, List.mem_cons, List.not_mem_nil, or_false] at *
    omega
  all_goals exact iff_of_false (Option.some_ne_none _) (by decide)

namespace Instr

/-- The opcodes of the commands without an rd field (R105). -/
theorem usesRd_eq_false_iff (i : Instr) :
    i.format.usesRd = false ↔ i.opcode ∈ [0x00#8, 0x14#8, 0x15#8, 0x19#8, 0x20#8, 0x21#8] := by
  cases i <;> simp [format, opcode, Format.usesRd]

/-- The opcodes of the commands without an rs1 field (R105). -/
theorem usesRs1_eq_false_iff (i : Instr) :
    i.format.usesRs1 = false ↔ i.opcode ∈ [0x00#8, 0x18#8, 0x1D#8, 0x1E#8] := by
  cases i <;> simp [format, opcode, Format.usesRs1]

/-- The opcodes of the commands without an rs2 field: all but these (R105). -/
theorem usesRs2_eq_false_iff (i : Instr) :
    i.format.usesRs2 = false ↔ i.opcode ∉ [0x01#8, 0x02#8, 0x08#8, 0x11#8, 0x20#8] := by
  cases i <;> simp [format, opcode, Format.usesRs2]

/-- LEGQ is the one command that not every parameter set has (R106). -/
theorem existsOn_eq_false_iff (i : Instr) (p : Params) :
    i.existsOn p = false ↔ i.opcode = 0x15#8 ∧ p.prime % 4 = 3 := by
  have hclass : p.pclass = 1 ↔ p.prime % 4 = 3 := by unfold Params.pclass; split <;> grind
  cases i <;> simp [existsOn, opcode, hclass]

end Instr

/-- What makes a word fail decode, once its opcode has a row (R106, R107(b) to (d)). -/
theorem decodeOn_eq_none_iff_of_row {p : Params} {w : CmdWord} {f : Format} {i : Instr}
    (h : opcodeRow (opcodeField w) (rdField w) (rs1Field w) (rs2Field w) = some (f, i)) :
    decodeOn p w = none ↔ w &&& f.mask ≠ (opcodeField w).setWidth 32 ∨ i.existsOn p = false := by
  by_cases hmask : w &&& f.mask = (opcodeField w).setWidth 32 <;> simp [decodeOn, decode, h, hmask]

/-- Settles O1: the opcode of the word leads to the command's own row, whose mask the word matches. -/
theorem decodeOfEncodeIsIdentity : Obligations.DecodeOfEncodeIsIdentity := decode_encode

/-- Settles O2: a word that matches its row's mask is 0 outside the fields that the row's command lays out. -/
theorem decodedWordIsTheEncoding : Obligations.DecodedWordIsTheEncoding := fun _ _ => encode_of_decode

/-- Settles O3: a word with no row fails by (a), and another by what its row's mask or R106's LEGQ line tests. -/
theorem illegalWordsAreThoseOfTheRule : Obligations.IllegalWordsAreThoseOfTheRule := by
  intro p w
  rw [← opcodeField, ← rdField, ← rs1Field, ← rs2Field]
  cases hrow : opcodeRow (opcodeField w) (rdField w) (rs1Field w) (rs2Field w) with
  | none => exact iff_of_true (by simp [decodeOn, decode, hrow]) (.inl (opcodeRow_eq_none_iff.mp hrow))
  | some row =>
    obtain ⟨f, i⟩ := row
    obtain ⟨hop, rfl, -⟩ := of_opcodeRow hrow
    have assigned := mt opcodeRow_eq_none_iff.mpr (hrow ▸ Option.some_ne_none (i.format, i))
    rw [or_iff_right assigned, decodeOn_eq_none_iff_of_row hrow, ← hop, ← i.usesRd_eq_false_iff,
      ← i.usesRs1_eq_false_iff, ← i.usesRs2_eq_false_iff, ← i.existsOn_eq_false_iff, hop, Ne, Format.and_mask_eq_iff]
    simp only [not_and_or, ← Ne.eq_def, Format.field_ne_self_iff]
    tauto

/-- Settles O6: the word is accepted and, with LAT(ILLEGAL) = 1, completes with ILLEGAL in the same cycle. -/
theorem illegalWordCompletesWithTheError : Obligations.IllegalWordCompletesWithTheError := by
  intro s v rest hidle hin hill hlat
  have hphase : ((s.taken rest).accept (v.setWidth 32)).phase = .busy (v.setWidth 32) 1 :=
    congrArg (Phase.busy _) hlat
  have hstep : step s = ((s.taken rest).accept (v.setWidth 32)).raise .illegal := by
    rw [step_accept hidle hin, sequencerHalf_last hphase, runWord_illegal (s := (s.taken rest).accept _) hill]
  have hnone : CommandWrites .nop ((s.taken rest).accept (v.setWidth 32)) _ := .refl _ _
  exact ⟨_, hstep, { hnone.completed (.error .illegal) with }, rfl, fun _ => rfl, rfl, rfl, rfl, rfl, rfl, rfl, rfl, rfl⟩

end Sys2Proof
end

section
/-! PROOFS, the residue field: powers and residues mod p as elements of `ZMod p` (43_power_ladders.md R240, R241), and the
quartic symbol of LEGQ (R252). -/

namespace Sys2Proof

open Sys2Proof.Machine Sys2Proof.Safety

namespace Machine

/-- The ladder's power, in the residue field (R241). -/
theorem natCast_powMod {m : Nat} (hm : 1 < m) (x e : Nat) : (powMod m x e : ZMod m) = (x : ZMod m) ^ e := by
  rw [powMod_eq m x e hm, ZMod.natCast_mod, Nat.cast_pow]

/-- The residue of a vector, in the residue field (R140). -/
theorem natCast_residue {p : Params} (hp : p.Sound) (L : Element) : (residue p L : ZMod p.prime) = (val p L : ZMod p.prime) := by
  have hval : ((residue p L : Nat) : Int) = val p L % p.prime := Int.toNat_of_nonneg (Int.emod_nonneg _ (prime_pos hp).ne')
  rw [← Int.cast_natCast, hval, ZMod.intCast_mod]

/-- Reduced numbers are equal where they are congruent. -/
theorem natCast_inj_of_lt {m a b : Nat} (ha : a < m) (hb : b < m) : (a : ZMod m) = b ↔ a = b := by
  rw [ZMod.natCast_eq_natCast_iff', Nat.mod_eq_of_lt ha, Nat.mod_eq_of_lt hb]

/-- The RESULT of LEGQ, by the quartic symbol as an element of the residue field (R252). -/
theorem quarticCode_eq {p : Params} (hp : 2 < p.prime) {q : Nat} (hq : q < p.prime) :
    quarticCode p q =
      if (q : ZMod p.prime) = 1 then 1#64 else if (q : ZMod p.prime) = 0 then 0#64
      else if (q : ZMod p.prime) = -1 then 0xFFFFFFFFFFFFFFFF#64 else 2#64 := by
  have one : (q : ZMod p.prime) = 1 ↔ q = 1 := by
    simpa only [Nat.cast_one] using natCast_inj_of_lt hq (b := 1) (by omega)
  have zero : (q : ZMod p.prime) = 0 ↔ q = 0 := by
    simpa only [Nat.cast_zero] using natCast_inj_of_lt hq (b := 0) (by omega)
  have minusOne : (q : ZMod p.prime) = -1 ↔ q = p.prime - 1 := by
    have hcast : ((p.prime - 1 : Nat) : ZMod p.prime) = -1 := by
      rw [Nat.cast_sub (by omega), ZMod.natCast_self, Nat.cast_one, zero_sub]
    rw [← hcast, natCast_inj_of_lt hq (by omega)]
  simp only [quarticCode, one, zero, minusOne]

section Quartic

variable {q : Nat} [Fact q.Prime] (hq : q % 4 = 1) {x : ZMod q}
include hq

/-- A non-zero fourth power has quartic symbol 1, by Fermat. -/
theorem quartic_pow_of_fourth_power (hx : x ≠ 0) (h : ∃ y, y ^ 4 = x) : x ^ ((q - 1) / 4) = 1 := by
  obtain ⟨y, rfl⟩ := h
  rw [← pow_mul, show 4 * ((q - 1) / 4) = q - 1 by omega]
  exact ZMod.pow_card_sub_one_eq_one (pow_ne_zero_iff (by decide) |>.mp hx)

/-- Any other square y² has symbol −1: the symbol is y^((q−1)/2), and where that is 1, Euler makes y a square. -/
theorem quartic_pow_of_square (h : IsSquare x) (h4 : ¬∃ y, y ^ 4 = x) : x ^ ((q - 1) / 4) = -1 := by
  obtain ⟨y, rfl⟩ := h
  have hy : y ≠ 0 := by
    rintro rfl
    exact h4 ⟨0, by simp⟩
  have hpow : (y * y) ^ ((q - 1) / 4) = y ^ (q / 2) := by
    rw [← pow_two, ← pow_mul, show 2 * ((q - 1) / 4) = q / 2 by omega]
  rw [hpow]
  refine (ZMod.pow_div_two_eq_neg_one_or_one q hy).resolve_left fun hone => ?_
  obtain ⟨z, rfl⟩ := (ZMod.euler_criterion q hy).mpr hone
  exact h4 ⟨z, by ring⟩

/-- The square of the symbol is x^((q−1)/2), which is not 1 where x is no square (Euler). -/
theorem quartic_pow_sq_ne_one (h : ¬IsSquare x) : (x ^ ((q - 1) / 4)) ^ 2 ≠ 1 := by
  have hx : x ≠ 0 := fun h0 => h (h0 ▸ IsSquare.zero)
  rw [← pow_mul, show (q - 1) / 4 * 2 = q / 2 by omega]
  exact mt (ZMod.euler_criterion q hx).mpr h

end Quartic

/-- What LEGQ answers for each kind of residue x (R252). -/
theorem quarticCode_powMod {p : Params} (hp : p.prime.Prime) (h4 : p.prime % 4 = 1) (n : Nat) :
    let x : ZMod p.prime := n
    let code := quarticCode p (powMod p.prime n (expQuartic p))
    (x = 0 → code = 0#64) ∧ (x ≠ 0 → (∃ y, y ^ 4 = x) → code = 1#64) ∧
      (IsSquare x → ¬(∃ y, y ^ 4 = x) → code = 0xFFFFFFFFFFFFFFFF#64) ∧ (¬IsSquare x → code = 2#64) := by
  intro x code
  have : Fact p.prime.Prime := ⟨hp⟩
  have hlt : 2 < p.prime := by have := hp.two_le; omega
  have : Fact (2 < p.prime) := ⟨hlt⟩
  have hcode := quarticCode_eq hlt (powMod_lt p.prime n (expQuartic p) (by omega))
  rw [natCast_powMod (by omega), expQuartic] at hcode
  refine ⟨fun h0 => ?_, fun hx hy => ?_, fun hsq hy => ?_, fun hsq => ?_⟩
  · have hzero : x ^ ((p.prime - 1) / 4) = 0 := by rw [h0, zero_pow (by omega)]
    exact hcode.trans (by rw [hzero, if_neg zero_ne_one, if_pos rfl])
  · exact hcode.trans (if_pos (quartic_pow_of_fourth_power h4 hx hy))
  · have hminus : x ^ ((p.prime - 1) / 4) = -1 := quartic_pow_of_square h4 hsq hy
    exact hcode.trans (by rw [hminus, if_neg ZMod.neg_one_ne_one, if_neg (neg_ne_zero.mpr one_ne_zero), if_pos rfl])
  · have hx : x ≠ 0 := fun h0 => hsq (h0 ▸ IsSquare.zero)
    have hne := quartic_pow_sq_ne_one h4 hsq
    refine hcode.trans ?_
    rw [if_neg fun h => hne (by rw [h, one_pow]), if_neg (pow_ne_zero _ hx), if_neg fun h => hne (by rw [h, neg_one_sq])]

/-- A query that stages its operands, writes RESULT and completes normally. -/
theorem writesResult_of_query (s : State) (a b : Element) (v : Word) :
    WritesResult s (((s.stage a b).setResult v).complete .ok) :=
  have hw : CommandWrites (.iszero 0) s ((s.stage a b).setResult v) := .of_stage (.setResult rfl v)
  ⟨hw.completed .ok, changesOnly_complete hw.frame .ok, rfl⟩

/-- LEGQ of a WF register, where LEGQ exists: RESULT is the code of the quartic symbol (R252). -/
theorem exec_legq_of_ok {s : State} {r : Reg} (hex : (Instr.legq r).existsOn s.params = true) (hok : s.operandOk r = true) :
    exec (.legq r) s = ((s.stage (s.elem r) s.d1).setResult
      (quarticCode s.params (powMod s.params.prime (s.elemResidue r) (expQuartic s.params)))).finish :=
  (if_pos hex).trans (if_pos hok)

/-- LEGQ where p ≡ 3 (mod 4), as it then does not exist (R106, R252). -/
theorem exec_legq_of_not_existsOn {s : State} {r : Reg} (hex : (Instr.legq r).existsOn s.params = false) :
    exec (.legq r) s = s.raise .illegal := if_neg (hex ▸ Bool.false_ne_true)

end Machine

/-- Settles O40: the code of the quartic symbol, case by case; where p ≡ 3 (mod 4), LEGQ does not exist. -/
theorem quarticLegendreResult : Obligations.QuarticLegendreResult := by
  intro s rs1 hp
  have hexists := (Instr.legq rs1).existsOn_eq_false_iff s.params
  refine ⟨fun h8 hok => ?_, fun h3 => ?_⟩
  · have hex : (Instr.legq rs1).existsOn s.params = true :=
      Bool.of_not_eq_false fun h => absurd (hexists.mp h).2 (by omega)
    have hresult := quarticCode_powMod (Primality.decided_prime _ hp) (by omega) (s.elemResidue rs1)
    rw [State.elemResidue, natCast_residue (Params.sound_of_decided hp)] at hresult
    exact ⟨_, exec_legq_of_ok hex hok, writesResult_of_query .., hresult⟩
  · have hw : CommandWrites .nop s s := .refl _ _
    exact ⟨_, exec_legq_of_not_existsOn (hexists.mpr ⟨rfl, h3⟩), hw.completed _, changesOnly_complete hw.frame _, rfl⟩

end Sys2Proof
end

section
/-! PROOFS, the limb model (40_limb_model.md R140 to R157): a WF vector split at bit n into low and res, the ranges of the
values that the commands chain, NORM's representative, and what a command leaves in its destination. -/

namespace Sys2Proof

open Sys2Proof.Machine Sys2Proof.Safety

namespace Params

namespace Sound

variable {p : Params} (hp : p.Sound)
include hp

/-- Limbs 0..D−2 hold at most n − 1 bits (R8(b)). -/
theorem two_pow_low_le : 2 * (2 : Int) ^ (p.db * (p.numLimbs - 1)) ≤ 2 ^ p.n := by
  rw [hp.n_eq, ← pow_succ']
  exact pow_le_pow_right₀ (by norm_num) (by have := hp.hdb_pos; omega)

/-- c² is small against the low limbs (R8(g)). -/
theorem c_sq_lt : 16 * (p.c : Int) ^ 2 < 2 ^ (p.db * (p.numLimbs - 1)) := by exact_mod_cast hp.c_sq

theorem c_lt : 32 * (p.c : Int) < 2 ^ p.n := by
  have hle : (p.c : Int) ≤ p.c ^ 2 := by exact_mod_cast Nat.le_self_pow (by decide) p.c
  linarith [hp.c_sq_lt, hp.two_pow_low_le]

/-- The low limbs have room for SCALAR (R8(f)). -/
theorem scalar_lt : 2 * (2 : Int) ^ 64 ≤ 2 ^ p.n :=
  calc 2 * (2 : Int) ^ 64 ≤ 2 * 2 ^ (p.db * (p.numLimbs - 1)) := by
        gcongr
        · norm_num
        · exact hp.scalar_room
    _ ≤ 2 ^ p.n := hp.two_pow_low_le

/-- The fold of a MULS product by c has room in the low limbs, by R8 (f) and (g). -/
theorem c_mul_lt : (p.c : Int) * 2 ^ 34 < 2 ^ p.n := by
  have hroom : (2 : Int) ^ 64 ≤ 2 ^ (p.db * (p.numLimbs - 1)) := pow_le_pow_right₀ (by norm_num) hp.scalar_room
  have hsq : ((p.c : Int) * 2 ^ 34) ^ 2 < (2 ^ (p.db * (p.numLimbs - 1))) ^ 2 :=
    calc ((p.c : Int) * 2 ^ 34) ^ 2 = 16 * (p.c : Int) ^ 2 * 2 ^ 64 := by ring
      _ < 2 ^ (p.db * (p.numLimbs - 1)) * 2 ^ 64 := by gcongr; exact hp.c_sq_lt
      _ ≤ (2 ^ (p.db * (p.numLimbs - 1))) ^ 2 := by rw [pow_two]; gcongr
  have hlt : (p.c : Int) * 2 ^ 34 < 2 ^ (p.db * (p.numLimbs - 1)) := lt_of_pow_lt_pow_left₀ 2 (by positivity) hsq
  linarith [hp.two_pow_low_le, pow_pos (show (0 : Int) < 2 by decide) (p.db * (p.numLimbs - 1))]

end Sound

/-- Half-limbs are narrower than a scalar's 32 bits on the decided sets (R9). -/
theorem decided_mdb_le : ∀ p ∈ decided, p.mdb ≤ 32 := by decide

end Params

namespace Machine

/-- The values of WF vectors (R144). -/
def InWfRange (p : Params) (V : Int) : Prop := -(2 : Int) ^ (p.n + 2) ≤ V ∧ V < 2 ^ (p.n + 2)

theorem inWfRange_iff {p : Params} {V : Int} : InWfRange p V ↔ -(4 * (2 : Int) ^ p.n) ≤ V ∧ V < 4 * 2 ^ p.n := by
  rw [InWfRange, pow_add, mul_comm]
  norm_num

section Split

variable {p : Params}

/-- The value of a vector, with its last limb split off (R140). -/
theorem val_append_singleton (p : Params) (t : Word) : ∀ L : Element,
    val p (L ++ [t]) = val p L + 2 ^ (p.db * L.length) * t.toInt
  | [] => by simp [val]
  | l :: ls => by
    rw [List.cons_append, val, val, val_append_singleton p t ls, List.length_cons, Nat.mul_succ, pow_add]
    ring

theorem dropLast_append_topLimb {L : Element} (h : L ≠ []) : L.dropLast ++ [topLimb L] = L := by
  rw [topLimb, List.getLastD_eq_getLast?, List.getLast?_eq_some_getLast h, Option.getD_some,
    List.dropLast_append_getLast h]

/-- Limbs of DB bits have a value below 2^(DB·k) (R140). -/
theorem val_of_all_low {L : Element} (h : L.all (lowLimbOk p) = true) :
    0 ≤ val p L ∧ val p L < 2 ^ (p.db * L.length) := by
  induction L with
  | nil => simp [val]
  | cons l ls ih =>
    simp only [List.all_cons, Bool.and_eq_true, lowLimbOk, decide_eq_true_eq] at h
    obtain ⟨⟨hl0, hl1⟩, hls⟩ := h
    obtain ⟨h0, h1⟩ := ih hls
    have hpos : (0 : Int) < 2 ^ p.db := by positivity
    rw [val, List.length_cons, Nat.mul_succ, pow_add]
    constructor <;> nlinarith

variable {L : Element}

theorem length_of_wf (h : wf p L = true) : L.length = p.numLimbs := by
  simp only [wf, Bool.and_eq_true, beq_iff_eq] at h
  exact h.1.1

theorem dropLast_low_of_wf (h : wf p L = true) : L.dropLast.all (lowLimbOk p) = true := by
  simp only [wf, Bool.and_eq_true] at h
  exact h.1.2

theorem topLimb_range_of_wf (h : wf p L = true) :
    -(2 : Int) ^ (p.hdb + 2) ≤ (topLimb L).toInt ∧ (topLimb L).toInt < 2 ^ (p.hdb + 2) := by
  simpa [topLimbOk] using (Bool.and_eq_true_iff.mp h).2

/-- The residual of a WF vector is in [−4, 3] (R141, R144). -/
theorem res_range (h : wf p L = true) : -4 ≤ res p L ∧ res p L ≤ 3 := by
  obtain ⟨t0, t1⟩ := topLimb_range_of_wf h
  have hpos : (0 : Int) < 2 ^ p.hdb := by positivity
  rw [pow_add] at t0 t1
  refine ⟨?_, Int.le_of_lt_add_one ?_⟩
  · rw [res, Int.le_ediv_iff_mul_le hpos]; linarith
  · rw [res, Int.ediv_lt_iff_lt_mul hpos]; linarith

variable (hp : p.Sound)
include hp

theorem ne_nil_of_length (h : L.length = p.numLimbs) : L ≠ [] :=
  List.ne_nil_of_length_pos (by have := hp.two_limbs; omega)

/-- low is the value of the low limbs and the masked top limb, in [0, 2^n) (R142). -/
theorem low_range (h : wf p L = true) : 0 ≤ low p L ∧ low p L < 2 ^ p.n := by
  obtain ⟨h0, h1⟩ := val_of_all_low (dropLast_low_of_wf h)
  rw [List.length_dropLast, length_of_wf h] at h1
  have hpos : (0 : Int) < 2 ^ p.hdb := by positivity
  have t0 := Int.emod_nonneg (topLimb L).toInt hpos.ne'
  have t1 := Int.emod_lt_of_pos (topLimb L).toInt hpos
  rw [low, hp.n_eq, pow_add]
  constructor <;> nlinarith

/-- val = low + 2^n·res (R141, R142). -/
theorem val_eq_low_add_res (h : wf p L = true) : val p L = low p L + 2 ^ p.n * res p L := by
  have hsplit := congrArg (val p) (dropLast_append_topLimb (ne_nil_of_length hp (length_of_wf h)))
  rw [val_append_singleton, List.length_dropLast, length_of_wf h] at hsplit
  have htop := Int.emod_add_mul_ediv (topLimb L).toInt (2 ^ p.hdb)
  rw [low, res, hp.n_eq, pow_add, ← hsplit]
  linear_combination -(2 : Int) ^ (p.db * (p.numLimbs - 1)) * htop

theorem res_eq (h : wf p L = true) : res p L = val p L / 2 ^ p.n := by
  obtain ⟨h0, h1⟩ := low_range hp h
  rw [val_eq_low_add_res hp h, Int.add_mul_ediv_left _ _ (by positivity), Int.ediv_eq_zero_of_lt h0 h1, Int.zero_add]

theorem low_eq (h : wf p L = true) : low p L = val p L % 2 ^ p.n := by
  obtain ⟨h0, h1⟩ := low_range hp h
  rw [val_eq_low_add_res hp h, Int.add_mul_emod_self_left, Int.emod_eq_of_lt h0 h1]

/-- The fold of a WF vector's value, as R152 writes it. -/
theorem fold_val (h : wf p L = true) : fold p (val p L) = low p L + p.c * res p L := by
  rw [fold, low_eq hp h, res_eq hp h]

end Split

section Values

variable {p : Params} (hp : p.Sound)
include hp

/-- fold keeps the residue mod p (R145). -/
theorem fold_modEq (V : Int) : fold p V ≡ V [ZMOD (p.prime : Int)] :=
  Int.emod_eq_emod_iff_emod_sub_eq_zero.mpr (fold_mod hp V)

/-- NORM's representative is the same for two values exactly where they are congruent mod p (R155). -/
theorem canon_eq_canon_iff {v w : Int} : canon p v = canon p w ↔ v ≡ w [ZMOD (p.prime : Int)] := by
  refine ⟨fun h => ?_, fun h => congrArg (chain p) h⟩
  obtain ⟨-, hv, -⟩ := canon_spec hp v
  obtain ⟨-, hw, -⟩ := canon_spec hp w
  rw [Int.ModEq, ← hv, ← hw, h]

omit hp in
theorem canon_of_normalized {L : Element} (h : normalized p L = true) : canon p (val p L) = L :=
  (beq_iff_eq.mp h).symm

omit hp in
/-- The zero vector (R143). -/
theorem chainK_zero (p : Params) : ∀ k, chainK p k 0 = List.replicate k 0#64
  | 0 => rfl
  | 1 => rfl
  | k + 2 => by rw [chainK_cons, Int.zero_emod, Int.zero_ediv, chainK_zero p (k + 1)]; rfl

/-- The residual of a chained vector (R141, R143). -/
theorem res_chain {V : Int} (h : InWfRange p V) : res p (chain p V) = V / 2 ^ p.n := by
  rw [res_eq hp (wf_chain hp h.1 h.2), val_chain hp h.1 h.2]

end Values

section Ranges

variable {p : Params} {V W x y k : Int}

theorem inWfRange_add (hx : |x| < 2 * 2 ^ p.n) (hy : |y| < 2 * 2 ^ p.n) : InWfRange p (x + y) := by
  rw [abs_lt] at hx hy
  rw [inWfRange_iff]
  omega

theorem inWfRange_sub (hx : |x| < 2 * 2 ^ p.n) (hy : |y| < 2 * 2 ^ p.n) : InWfRange p (x - y) :=
  sub_eq_add_neg x y ▸ inWfRange_add hx (by rwa [abs_neg])

theorem inWfRange_of_abs_lt (hx : |x| < 2 * 2 ^ p.n) : InWfRange p x :=
  add_zero x ▸ inWfRange_add hx (by rw [abs_zero]; positivity)

theorem abs_le_of_inWfRange (hV : InWfRange p V) : |V| ≤ 4 * 2 ^ p.n := by
  obtain ⟨h0, h1⟩ := inWfRange_iff.mp hV
  exact abs_le.mpr ⟨h0, h1.le⟩

/-- A value of magnitude at most k·2^n has a quotient of magnitude at most k. -/
theorem abs_ediv_two_pow_le {n : Nat} (h : |x| ≤ k * 2 ^ n) : |x / 2 ^ n| ≤ k := by
  have hpos : (0 : Int) < 2 ^ n := by positivity
  obtain ⟨h0, h1⟩ := abs_le.mp h
  exact abs_le.mpr ⟨(Int.le_ediv_iff_mul_le hpos).mpr (by linarith), Int.ediv_le_of_le_mul hpos h1⟩

/-- The magnitude of the fold of a value of magnitude at most k·2^n, where k·c fits n bits (R145). -/
theorem abs_fold_lt_of_abs_le (h : |x| ≤ k * 2 ^ p.n) (hk : p.c * k < (2 : Int) ^ p.n) : |fold p x| < 2 * 2 ^ p.n := by
  have hpos : (0 : Int) < 2 ^ p.n := by positivity
  have hlow : |x % 2 ^ p.n| < 2 ^ p.n := by
    rw [abs_of_nonneg (Int.emod_nonneg _ hpos.ne')]
    exact Int.emod_lt_of_pos x hpos
  have hhigh : |(p.c : Int) * (x / 2 ^ p.n)| < 2 ^ p.n := by
    rw [abs_mul, Nat.abs_cast]
    exact (mul_le_mul_of_nonneg_left (abs_ediv_two_pow_le h) (Int.natCast_nonneg _)).trans_lt hk
  calc |fold p x| ≤ |x % 2 ^ p.n| + |(p.c : Int) * (x / 2 ^ p.n)| := abs_add_le ..
    _ < 2 * 2 ^ p.n := by linarith

theorem inWfRange_of_wf (hp : p.Sound) {L : Element} (h : wf p L = true) : InWfRange p (val p L) :=
  have ⟨h1, h2, _⟩ := wf_spec hp h
  ⟨h1, h2⟩

variable (hp : p.Sound) (hV : InWfRange p V) (hW : InWfRange p W)
include hp

/-- SCALAR, whatever its value (R8(f)). -/
theorem abs_toInt_lt (v : Word) : |v.toInt| < 2 * 2 ^ p.n := by
  have h0 := v.le_toInt
  have h1 := v.toInt_lt
  have := hp.scalar_lt
  exact abs_lt.mpr (by omega)

include hV

theorem abs_fold_lt : |fold p V| < 2 * 2 ^ p.n :=
  abs_fold_lt_of_abs_le (abs_le_of_inWfRange hV) (by have := hp.c_lt; omega)

include hW in
/-- The reduced product of two WF values is in the WF range (R218). -/
theorem inWfRange_reduceProduct : InWfRange p (reduceProduct p (V * W)) := by
  have hpos : (0 : Int) < 2 ^ p.n := by positivity
  have hlow : |V * W % 2 ^ p.n| < 2 * 2 ^ p.n := by
    rw [abs_of_nonneg (Int.emod_nonneg _ hpos.ne')]
    linarith [Int.emod_lt_of_pos (V * W) hpos]
  have hVW : |V * W| ≤ 16 * 2 ^ p.n * 2 ^ p.n :=
    calc |V * W| = |V| * |W| := abs_mul ..
      _ ≤ 4 * 2 ^ p.n * (4 * 2 ^ p.n) :=
        mul_le_mul (abs_le_of_inWfRange hV) (abs_le_of_inWfRange hW) (abs_nonneg _) (by positivity)
      _ = 16 * 2 ^ p.n * 2 ^ p.n := by ring
  have hhigh : |(p.c : Int) * (V * W / 2 ^ p.n)| ≤ 16 * p.c * 2 ^ p.n :=
    calc |(p.c : Int) * (V * W / 2 ^ p.n)| = p.c * |V * W / 2 ^ p.n| := by rw [abs_mul, Nat.abs_cast]
      _ ≤ p.c * (16 * 2 ^ p.n) := mul_le_mul_of_nonneg_left (abs_ediv_two_pow_le hVW) (Int.natCast_nonneg _)
      _ = 16 * p.c * 2 ^ p.n := by ring
  have hc : (p.c : Int) * (16 * p.c) < 2 ^ p.n := by linarith [hp.c_sq_lt, hp.two_pow_low_le]
  exact inWfRange_add hlow (abs_fold_lt_of_abs_le hhigh hc)

/-- The fold of a WF value times a scalar of 33 bits is in the WF range (R220). -/
theorem inWfRange_fold_mul {v : Int} (hv : |v| ≤ 2 ^ 32) : InWfRange p (fold p (V * v)) := by
  have hmul : |V * v| ≤ 2 ^ 34 * 2 ^ p.n :=
    calc |V * v| = |V| * |v| := abs_mul ..
      _ ≤ 4 * 2 ^ p.n * 2 ^ 32 := mul_le_mul (abs_le_of_inWfRange hV) hv (abs_nonneg _) (by positivity)
      _ = 2 ^ 34 * 2 ^ p.n := by ring
  exact inWfRange_of_abs_lt (abs_fold_lt_of_abs_le hmul hp.c_mul_lt)

end Ranges

/-- A scalar in the range of MULS has at most 33 bits (R10). -/
theorem abs_toInt_le_of_inMulRange {p : Params} (hp : p.mdb ≤ 32) {v : Word} (h : inMulRange p v = true) :
    |v.toInt| ≤ 2 ^ 32 := by
  have hle : (2 : Int) ^ p.mdb ≤ 2 ^ 32 := pow_le_pow_right₀ (by norm_num) hp
  have hpos : (0 : Int) < 2 ^ p.mdb := by positivity
  obtain ⟨h0, h1⟩ := Bool.and_eq_true_iff.mp h
  have hlo : -((2 : Int) ^ 32 - 2 ^ p.mdb) ≤ v.toInt := of_decide_eq_true h0
  have hhi : v.toInt ≤ 2 ^ p.mdb - 1 := of_decide_eq_true h1
  exact abs_le.mpr (by omega)

/-! ### Commands with WF operands -/

section Runs

variable {s : State} {a b : Reg}

theorem both_ok (ha : s.operandOk a = true) (hb : s.operandOk b = true) : (s.operandOk a && s.operandOk b) = true :=
  Bool.and_eq_true_iff.mpr ⟨ha, hb⟩

theorem pairwise_of_ok (ha : s.operandOk a = true) (hb : s.operandOk b = true) (rd : Reg) (V : Int) :
    pairwise s rd a b V = .next ((s.writeLoose rd V).complete .ok) := if_pos (both_ok ha hb)

theorem withScalar_of_ok (ha : s.operandOk a = true) {ok : Bool} (hok : ok = true) (rd : Reg) (V : Int) :
    withScalar s rd a ok V = .next ((s.writeLoose rd V).complete .ok) := (if_pos ha).trans (if_pos hok)

theorem exec_neg_of_ok (ha : s.operandOk a = true) (rd : Reg) :
    exec (.neg rd a) s = .next ((s.writeLoose rd (-fold s.params (s.elemVal a))).complete .ok) := if_pos ha

/-- REDUCE of a WF register (R152). -/
theorem exec_reduce_of_ok (ha : s.operandOk a = true) (rd : Reg) :
    exec (.reduce rd a) s = .next ((s.writeLoose rd (fold s.params (s.elemVal a))).complete .ok) := if_pos ha

theorem exec_seti_of_ok (h : inAddRange s.params s.scalar = true) (rd : Reg) :
    exec (.seti rd) s = .next ((s.setElem rd (chain s.params s.scalarInt)).complete .ok) := if_pos h

/-- What NORM leaves: the canonical representative in rd, and a staged copy that its completion scrubs (R153, R154). -/
def normed (s : State) (rd a : Reg) : State :=
  ((s.stage (chain s.params (fold s.params (fold s.params (s.elemVal a)))) (canon s.params (s.elemVal a))).setElem rd
    (canon s.params (s.elemVal a))).complete .ok

theorem exec_norm_of_ok (ha : s.operandOk a = true) (rd : Reg) : exec (.norm rd a) s = .next (normed s rd a) :=
  if_pos ha

@[simp] theorem normed_elem_same (s : State) (rd a : Reg) : (normed s rd a).elem rd = canon s.params (s.elemVal a) :=
  State.setElem_elem_same ..

end Runs

/-! ### What such a command leaves -/

theorem outputs_of_destination {i : Instr} {rd : Reg} (h : destination i = some rd) :
    writesResult i = false ∧ writesImage i = false := by
  cases i with
  | nop | leg | legq | pack | cmpeq | iszero => cases h
  | _ => exact ⟨rfl, rfl⟩

/-- The frame of a command that writes rd (R31). -/
theorem CommandWrites.frame_of_destination {i : Instr} {rd : Reg} {s u : State} (hd : destination i = some rd)
    (h : CommandWrites i s u) : ChangesOnly (some rd) false false s u := by
  obtain ⟨hr, hi⟩ := outputs_of_destination hd
  have hframe := h.frame
  rwa [hd, hr, hi] at hframe

theorem CommandWrites.writesElem {i : Instr} {rd : Reg} {s u : State} (hd : destination i = some rd)
    (h : CommandWrites i s u) (hreport : u.report = s.report) : WritesElem rd s (u.complete .ok) :=
  ⟨h.completed .ok, changesOnly_complete (h.frame_of_destination hd) .ok, hreport⟩

/-- A loose result, from the exact value's range and residue (R147, R156, R157). -/
theorem looseResult_writeLoose {s : State} (hp : s.params.Sound) (rd : Reg) {V m : Int} (hV : InWfRange s.params V)
    (hm : V ≡ m [ZMOD (s.params.prime : Int)]) : LooseResult rd V m s ((s.writeLoose rd V).complete .ok) := by
  obtain ⟨hwf, hmod, hexact⟩ := writeLoose_spec hp rd hV.1 hV.2
  have hw : CommandWrites (.scrub rd) s (s.writeLoose rd V) := .writeLoose rfl V
  exact ⟨hw.writesElem rfl rfl, hwf, (Int.emod_eq_emod_iff_emod_sub_eq_zero.mpr hmod).trans hm, hexact⟩

/-- A Normalized result is a canonical vector (R146). -/
theorem normalResult_of_canon {s t : State} (hp : s.params.Sound) {rd : Reg} (h : WritesElem rd s t) {v : Int}
    (he : t.elem rd = canon s.params v) : NormalResult rd (v % s.params.prime).toNat s t := by
  obtain ⟨hwf, hval, -⟩ := canon_spec hp v
  have hnonneg : 0 ≤ v % s.params.prime := Int.emod_nonneg _ (prime_pos hp).ne'
  have hlt : v % s.params.prime < s.params.prime := Int.emod_lt_of_pos _ (prime_pos hp)
  exact
    { writes := h
      elem := by rw [he, canon, Int.toNat_of_nonneg hnonneg]
      wf := he ▸ hwf
      small := by omega
      value := by rw [he, hval, Int.toNat_of_nonneg hnonneg] }

theorem writesElem_normed (s : State) (rd a : Reg) : WritesElem rd s (normed s rd a) :=
  have hw : CommandWrites (.norm rd a) s _ := .of_stage (.setElem rfl fun _ => length_canon ..)
  hw.writesElem rfl rfl

theorem inWfRange_elemVal {s : State} (hp : s.params.Sound) {a : Reg} (ha : s.operandOk a = true) :
    InWfRange s.params (s.elemVal a) := inWfRange_of_wf hp ha

/-- One fold leaves a residual of −1, 0 or 1 (R152). -/
theorem fold_ediv_range {p : Params} (hp : p.Sound) {V : Int} (hV : InWfRange p V) :
    -1 ≤ fold p V / 2 ^ p.n ∧ fold p V / 2 ^ p.n ≤ 1 := by
  obtain ⟨f0, f1⟩ := fold_range hV.1 hV.2
  have hc := hp.c_lt
  have hpos : (0 : Int) < 2 ^ p.n := by positivity
  exact ⟨(Int.le_ediv_iff_mul_le hpos).mpr (by omega),
    Int.le_of_lt_add_one ((Int.ediv_lt_iff_lt_mul hpos).mpr (by omega))⟩

end Machine

/-- Settles O32: REDUCE writes the fold of the value, which is low + c·res; NORM writes the canonical vector, which a
Normalized operand is already. -/
theorem reduceAndNormResults : Obligations.ReduceAndNormResults := by
  intro s rd rs1 hdec hok
  have hp := Params.sound_of_decided hdec
  have hV := inWfRange_elemVal hp hok
  have hfold := inWfRange_of_abs_lt (abs_fold_lt hp hV)
  refine ⟨⟨_, exec_reduce_of_ok hok rd, ?_, fun hexact => ?_⟩,
    ⟨_, exec_norm_of_ok hok rd, normalResult_of_canon hp (writesElem_normed s rd rs1) (normed_elem_same ..), ?_,
      fun hnorm => ?_⟩⟩
  · rw [← fold_val hp hok]
    exact looseResult_writeLoose hp rd hfold (fold_modEq hp _)
  · rw [State.complete_ok_elem, State.writeLoose_elem_same, s.looseValue_exact _ hexact, res_chain hp hfold]
    exact fold_ediv_range hp hV
  · rw [normed_elem_same]
    exact (canon_spec hp _).2.2
  · rw [normed_elem_same]
    exact canon_of_normalized hnorm

/-- Settles O46: NORM writes the canonical vector, which is its own, and which congruent values share. -/
theorem normLaws : Obligations.NormLaws := by
  intro s a b rd rd' hdec ha hb
  have hp := Params.sound_of_decided hdec
  obtain ⟨hwf, hval, hnorm⟩ := canon_spec hp (s.elemVal a)
  rw [← normed_elem_same s rd a] at hwf hval hnorm
  have hagain : exec (.norm rd' rd) (normed s rd a) = .next (normed (normed s rd a) rd' rd) := exec_norm_of_ok hwf rd'
  refine ⟨_, _, normed (normed s rd a) rd' rd, exec_norm_of_ok ha rd, exec_norm_of_ok hb rd, ?_, hnorm, ?_, ?_, ?_⟩
  · simp only [execAll, exec_norm_of_ok ha rd, hagain]
  · rw [hval]
    exact Int.mod_modEq ..
  · rw [normed_elem_same]
    exact canon_of_normalized hnorm
  · rw [normed_elem_same, normed_elem_same]
    exact canon_eq_canon_iff hp

end Sys2Proof
end

section
/-! PROOFS, model-level faults (40_limb_model.md R148, 60_exceptions.md R326): what a command with a source that is not WF
leaves; and R147, that until one is reported every register stays WF or scrubbed. -/

namespace Sys2Proof

open Sys2Proof.Machine Sys2Proof.Safety

namespace Machine

section NotOk

variable {s : State} {i : Instr} {rd a b : Reg}

theorem not_ok_of_mem_one (h : ∃ r ∈ [a], s.operandOk r = false) : ¬s.operandOk a = true := by simpa using h

theorem not_both_ok_of_mem (h : ∃ r ∈ [a, b], s.operandOk r = false) : ¬(s.operandOk a && s.operandOk b) = true := by
  simpa [imp_iff_not_or] using h

/-- A command that writes rd, with a source that is not WF (R148): it fails its operand check, which comes first
(R325). -/
theorem exec_of_not_ok (hd : destination i = some rd) (h : ∃ r ∈ checkedSources i, s.operandOk r = false) :
    exec i s = .next ((s.ubElem .operand rd).complete .ok) := by
  cases i with
  | nop | leg | legq | pack | cmpeq | iszero => cases hd
  | mov | seti | scrub | unpack => simp [checkedSources] at h
  | add | sub | mul | div =>
    obtain rfl := Option.some.inj hd
    exact if_neg (not_both_ok_of_mem h)
  | neg | adds | subs | muls | reduce | norm | inv | sqrt | isqrt =>
    obtain rfl := Option.some.inj hd
    exact if_neg (not_ok_of_mem_one h)
  | sqr rd' a =>
    obtain rfl := Option.some.inj hd
    exact if_neg fun ha => not_ok_of_mem_one h (Bool.and_eq_true_iff.mp ha).1

/-- A query with a source that is not WF (R148), where the query exists (R106). -/
theorem exec_query_of_not_ok (hr : writesResult i = true) (hex : i.existsOn s.params = true)
    (h : ∃ r ∈ checkedSources i, s.operandOk r = false) : exec i s = .next ((s.ubResult .operand).complete .ok) := by
  cases i with
  | leg | iszero => exact if_neg (not_ok_of_mem_one h)
  | legq => exact (if_pos hex).trans (if_neg (not_ok_of_mem_one h))
  | cmpeq => exact if_neg (not_both_ok_of_mem h)
  | _ => cases hr

theorem exec_pack_of_not_ok (h : s.operandOk a = false) : exec (.pack a) s = .next (s.ubPack.complete .ok) :=
  if_neg (h ▸ Bool.false_ne_true)

/-- A command that writes RESULT writes no register and no image (R40). -/
theorem outputs_of_writesResult (h : writesResult i = true) : destination i = none ∧ writesImage i = false := by
  cases i with
  | leg | legq | cmpeq | iszero => exact ⟨rfl, rfl⟩
  | _ => cases h

/-- The frame of a query (R40). -/
theorem CommandWrites.frame_of_writesResult {u : State} (hr : writesResult i = true) (h : CommandWrites i s u) :
    ChangesOnly none true false s u := by
  obtain ⟨hd, hi⟩ := outputs_of_writesResult hr
  have hframe := h.frame
  rwa [hr, hd, hi] at hframe

end NotOk

end Machine

/-- Settles O50: the operand check of each command that writes rd. -/
theorem nonWfOperandLeavesRdUnspecified : Obligations.NonWfOperandLeavesRdUnspecified := by
  intro s i rd hd hbad
  have hw : CommandWrites i s (s.ubElem .operand rd) := .ubElem hd _
  exact ⟨_, exec_of_not_ok hd hbad, hw.completed .ok, changesOnly_complete (hw.frame_of_destination hd) .ok,
    s.ubElem_elem_same .operand rd, rfl, rfl⟩

/-- Settles O52: the operand check of each query. -/
theorem nonWfOperandLeavesResultUnspecified : Obligations.NonWfOperandLeavesResultUnspecified := by
  intro s i hr hex hbad
  have hw : CommandWrites i s (s.ubResult .operand) := .ubResult hr _
  exact ⟨_, exec_query_of_not_ok hr hex hbad, hw.completed .ok, changesOnly_complete (hw.frame_of_writesResult hr) .ok,
    rfl, rfl, rfl⟩

/-- Settles O53: PACK's fault is its report alone. -/
theorem nonWfPackChangesNothingElse : Obligations.NonWfPackChangesNothingElse := by
  intro s rs1 hbad
  have hw : CommandWrites .nop s s.ubPack := (CommandWrites.refl _ s).reportUB _
  exact ⟨_, exec_pack_of_not_ok hbad, hw.completed .ok, changesOnly_complete hw.frame .ok, rfl, rfl⟩

namespace Safety.Defined

variable {s u : State}

/-- The invariant looks at the registers, the set-up and the report. -/
theorem congr (h : Defined s) (hregs : u.regs = s.regs) (hsetup : u.setup = s.setup) (hreport : u.report = s.report) :
    Defined u := fun hnone r => by
  have helem : u.elem r = s.elem r := congrArg (·.get r.toFin) hregs
  have hparams : u.params = s.params := congrArg Setup.params hsetup
  rw [helem, hparams]
  exact h (hreport ▸ hnone) r

/-- A reported fault ends what the model defines (R148). -/
theorem of_report {e : UB} (h : s.report = some e) : Defined s := fun hnone => by cases h.symm.trans hnone

theorem setElem (h : Defined s) (rd : Reg) {L : Element} (hL : s.report = none → regDefined s.params L = true) :
    Defined (s.setElem rd L) := fun hnone r => by
  rw [State.setElem_elem]
  split
  · exact hL hnone
  · exact h hnone r

theorem setElem_wf (h : Defined s) (rd : Reg) {L : Element} (hL : wf s.params L = true) : Defined (s.setElem rd L) :=
  h.setElem rd fun _ => Bool.or_eq_true_iff.mpr (.inl hL)

theorem setElem_scrubbed (h : Defined s) (rd : Reg) : Defined (s.setElem rd s.params.scrubbed) :=
  h.setElem rd fun _ => Bool.or_eq_true_iff.mpr (.inr (beq_self_eq_true _))

theorem setElem_canon (h : Defined s) (hp : s.params.Sound) (rd : Reg) (v : Int) :
    Defined (s.setElem rd (canon s.params v)) := h.setElem_wf rd (canon_spec hp v).1

theorem setElem_chain (h : Defined s) (hp : s.params.Sound) (rd : Reg) {V : Int} (hV : InWfRange s.params V) :
    Defined (s.setElem rd (chain s.params V)) := h.setElem_wf rd (wf_chain hp hV.1 hV.2)

theorem writeLoose (h : Defined s) (hp : s.params.Sound) (rd : Reg) {V : Int} (hV : InWfRange s.params V) :
    Defined (s.writeLoose rd V) :=
  congr (h.setElem_chain hp rd ((s.looseValue_spec V).2 hV)) rfl rfl rfl

end Safety.Defined

namespace Machine

/-- A run that ends in a state with the invariant of R147. -/
def EndsDefined (o : Host.Outcome State Fault Refusal) : Prop := ∃ t, o = .next t ∧ Defined t

namespace EndsDefined

variable {s u : State} {rd a b : Reg}

/-- Completion changes no register (R327). -/
theorem complete (h : Defined u) (c : Completion) : EndsDefined (.next (u.complete c)) :=
  ⟨_, rfl, h.congr rfl rfl rfl⟩

theorem finish (h : Defined u) : EndsDefined u.finish := complete h .ok

/-- A command that checks something, and may use what it has checked. -/
theorem ite {c : Prop} [Decidable c] {o o' : Host.Outcome State Fault Refusal} (h : c → EndsDefined o)
    (h' : EndsDefined o') : EndsDefined (if c then o else o') := by
  by_cases hc : c
  · rw [if_pos hc]; exact h hc
  · rw [if_neg hc]; exact h'

theorem ubElem (e : UB) : EndsDefined (s.ubElem e rd).finish := finish (.of_report (s.ubElem_report e rd))

/-- A query writes no register. -/
theorem query {c : Prop} [Decidable c] (h : Defined s) (x y : Element) (v : Word) (e : UB) :
    EndsDefined (if c then ((s.stage x y).setResult v).finish else (s.ubResult e).finish) :=
  ite (fun _ => finish (h.congr rfl rfl rfl)) (finish (.of_report (s.ubResult_report e)))

variable (h : Defined s) (hp : s.params.Sound)
include h hp

theorem pairwise {V : Int} (hV : s.operandOk a = true → s.operandOk b = true → InWfRange s.params V) :
    EndsDefined (pairwise s rd a b V) :=
  ite (fun hok =>
    have ⟨ha, hb⟩ := Bool.and_eq_true_iff.mp hok
    finish (h.writeLoose hp rd (hV ha hb))) (ubElem _)

theorem withScalar {ok : Bool} {V : Int} (hV : s.operandOk a = true → ok = true → InWfRange s.params V) :
    EndsDefined (withScalar s rd a ok V) :=
  ite (fun ha => ite (fun hok => finish (h.writeLoose hp rd (hV ha hok))) (ubElem _)) (ubElem _)

theorem loose {V : Int} (hV : s.operandOk a = true → InWfRange s.params V) :
    EndsDefined (if s.operandOk a then (s.writeLoose rd V).finish else (s.ubElem .operand rd).finish) :=
  ite (fun ha => finish (h.writeLoose hp rd (hV ha))) (ubElem _)

/-- A command with checked operands that writes a canonical vector. -/
theorem normal {c : Prop} [Decidable c] (v : Int) (e : UB) :
    EndsDefined (if c then (s.setElem rd (canon s.params v)).finish else (s.ubElem e rd).finish) :=
  ite (fun _ => finish (h.setElem_canon hp rd v)) (ubElem e)

/-- The same, with operands staged in the scratchpad. -/
theorem stagedNormal {c : Prop} [Decidable c] (x y : Element) (v : Int) (e : UB) :
    EndsDefined (if c then ((s.stage x y).setElem rd (canon s.params v)).finish else (s.ubElem e rd).finish) :=
  ite (fun _ => finish ((h.setElem_canon hp rd v).congr rfl rfl rfl)) (ubElem e)

end EndsDefined

/-- Every command keeps R147's invariant: each loose result is in the WF range, and each other one is canonical, scrubbed,
a copy, the chained value of PB bytes, or reported as unspecified. -/
theorem exec_endsDefined (i : Instr) {s : State} (hdec : s.params ∈ Params.decided) (h : Defined s) :
    EndsDefined (exec i s) := by
  have hp := Params.sound_of_decided hdec
  have hval {r : Reg} (hr : s.operandOk r = true) : InWfRange s.params (s.elemVal r) := inWfRange_elemVal hp hr
  have hfold {r : Reg} (hr : s.operandOk r = true) : |fold s.params (s.elemVal r)| < 2 * 2 ^ s.params.n :=
    abs_fold_lt hp (hval hr)
  have hscalar : |s.scalarInt| < 2 * 2 ^ s.params.n := abs_toInt_lt hp s.scalar
  cases i with
  | nop => exact .finish h
  | add rd a b => exact .pairwise h hp fun ha hb => inWfRange_add (hfold ha) (hfold hb)
  | sub rd a b => exact .pairwise h hp fun ha hb => inWfRange_sub (hfold ha) (hfold hb)
  | mul rd a b => exact .pairwise h hp fun ha hb => inWfRange_reduceProduct hp (hval ha) (hval hb)
  | sqr rd a => exact .pairwise h hp fun ha _ => inWfRange_reduceProduct hp (hval ha) (hval ha)
  | neg rd a => exact .loose h hp fun ha => inWfRange_of_abs_lt (by rw [abs_neg]; exact hfold ha)
  | reduce rd a => exact .loose h hp fun ha => inWfRange_of_abs_lt (hfold ha)
  | adds rd a => exact .withScalar h hp fun ha _ => inWfRange_add (hfold ha) hscalar
  | subs rd a => exact .withScalar h hp fun ha _ => inWfRange_sub (hfold ha) hscalar
  | muls rd a =>
    exact .withScalar h hp fun ha hok =>
      inWfRange_fold_mul hp (hval ha) (abs_toInt_le_of_inMulRange (Params.decided_mdb_le _ hdec) hok)
  | norm rd a | inv rd a | div rd a b => exact .stagedNormal h hp _ _ _ _
  | sqrt rd a | isqrt rd a => exact .normal h hp _ _
  | leg a | iszero a | cmpeq a b => exact .query h _ _ _ _
  | legq a => exact .ite (fun _ => .query h _ _ _ _) (.complete h _)
  | unpack rd =>
    have hrange : InWfRange s.params (s.imageValue s.params.packedBytes) := imageValue_range hp
    exact .ite (fun _ => .complete (h.setElem_scrubbed rd) _) (.finish (h.setElem_chain hp rd hrange))
  | pack a => exact .ite (fun _ => .finish (h.congr rfl rfl rfl)) (.finish (.of_report (s.reportUB_report _)))
  | mov rd a => exact .finish (h.setElem rd fun hnone => h hnone a)
  | seti rd => exact .ite (fun _ => .finish (h.setElem_chain hp rd (inWfRange_of_abs_lt hscalar))) (.ubElem _)
  | scrub rd => exact .finish (h.setElem_scrubbed rd)

/-- An accepted word keeps R147's invariant, legal or not. -/
theorem runWord_endsDefined (w : CmdWord) {s : State} (hdec : s.params ∈ Params.decided) (h : Defined s) :
    EndsDefined (runWord w s) := by
  rw [runWord]
  cases decode w with
  | some i => exact exec_endsDefined i hdec h
  | none => exact .complete h _

theorem defined_of_sequencerHalf {s t : State} (hdec : s.params ∈ Params.decided) (h : Defined s)
    (hs : sequencerHalf s = .next t) : Defined t := by
  obtain ⟨-, rfl⟩ | ⟨w, left, -, -, hr⟩ | ⟨w, left, -, -, rfl⟩ := sequencerHalf_next hs
  · exact h
  · obtain ⟨u, hu, hdef⟩ := runWord_endsDefined w hdec h
    obtain rfl := Host.Outcome.next.inj (hr.symm.trans hu)
    exact hdef
  · exact h.congr rfl rfl rfl

section Host

variable {s u : State} (hdec : s.params ∈ Params.decided) (h : Defined s)
include hdec h

omit h in
/-- A reset scrubs every register (R49). -/
theorem defined_resetBlock : Defined s.resetBlock := (resetMeetsTheInvariant s.setup s.inputs s.draws hdec).2

omit hdec in
theorem defined_whenIdle (hu : Defined u) : Defined (s.whenIdle u) := by
  cases hb : s.isBusy
  · rwa [whenIdle_idle u hb]
  · rw [whenIdle_busy u hb]
    exact h.congr rfl rfl rfl

/-- The host writes no element register, but may reset the block (R73, R361). -/
theorem defined_hostWrite (off : Nat) (v : Word) : Defined (s.hostWrite off v) := by
  cases hr : regAt s.params off <;> simp only [State.hostWrite, hr]
  case id | cfg | result | cmdCount | limb | reserved => exact h
  case status => exact h.congr rfl rfl rfl
  case cmd | scalar | pbufLen | pbuf => exact defined_whenIdle h (h.congr rfl rfl rfl)
  case ctrl =>
    split
    · exact defined_resetBlock hdec
    · exact h.congr rfl rfl rfl

theorem defined_of_access {a : Access} (ha : s.access a = .next u) : Defined u := by
  cases a with
  | read addr bytes =>
    simp only [State.access] at ha
    split at ha
    · cases ha
    · split at ha <;> obtain rfl := Host.Outcome.next.inj ha <;> exact h.congr rfl rfl rfl
  | write addr bytes v =>
    simp only [State.access] at ha
    split at ha
    · cases ha
    · obtain rfl := Host.Outcome.next.inj ha
      split
      · exact defined_hostWrite hdec h _ v
      · exact h

/-- The host's half of a cycle keeps R147's invariant. -/
theorem defined_of_hostHalf (hu : s.hostHalf = .next u) : Defined u := by
  have taken (ins : List HostOp) : Defined (s.taken ins) := h.congr rfl rfl rfl
  have of_eq {v : State} (hv : Defined v) (he : s.hostHalf = .next v) : Defined u :=
    Host.Outcome.next.inj (he.symm.trans hu) ▸ hv
  obtain ⟨-, he⟩ | ⟨rest, -, he⟩ | ⟨rest, -, -, he⟩ | ⟨rest, -, -, he⟩ | ⟨rest, -, he⟩ | ⟨a, rest, -, he⟩ |
    ⟨a, rest, -, he⟩ := hostHalf_cases s
  · exact of_eq (taken s.inputs) he
  · exact of_eq (taken rest) he
  · exact of_eq (taken s.inputs) he
  · exact of_eq (taken rest) he
  · exact of_eq (defined_resetBlock (s := s.taken rest) hdec) he
  · cases he.symm.trans hu
  · exact defined_of_access (s := s.taken rest) hdec (taken rest) (he.symm.trans hu)

end Host

end Machine

/-- Settles O26: neither half of a cycle leaves a register undefined without a report. -/
theorem stepKeepsRegistersDefined : Obligations.StepKeepsRegistersDefined := by
  intro s t hinv h hst
  obtain ⟨u, hu, ht⟩ := step_next hst
  have hsetup : u.setup = s.setup := (sequencerHalf_setup ht).symm.trans (step_setup hst)
  have hdec : u.params ∈ Params.decided := by
    rw [State.params, hsetup]
    exact hinv.decided
  exact defined_of_sequencerHalf hdec (defined_of_hostHalf hinv.decided h hu) ht

end Sys2Proof
end

section
/-! PROOFS, laws of command sequences (41_add_sub.md R189): the residues that registers hold, what each command does to
them, and the canonical vector that a sequence ends with when NORM is its last command. -/

namespace Sys2Proof

open Sys2Proof.Machine Sys2Proof.Safety

namespace Machine

/-- Register `r` holds a WF vector, of a value congruent to `x` mod p (R144, R155). -/
structure Holds (p : Params) (s : State) (r : Reg) (x : Int) : Prop where
  params : s.params = p
  ok : s.operandOk r = true
  value : s.elemVal r ≡ x [ZMOD (p.prime : Int)]

/-- Command `i` completes, changes only `rd`, and leaves there a WF vector congruent to `x`. -/
def Yields (p : Params) (i : Instr) (s : State) (rd : Reg) (x : Int) : Prop :=
  ∃ t, exec i s = .next t ∧ WritesElem rd s t ∧ Holds p t rd x

/-- A sequence of commands completes without a model-level fault, and leaves the canonical vector of `x` in `r`. -/
def Computes (p : Params) (is : List Instr) (s : State) (r : Reg) (x : Int) : Prop :=
  ∃ t, execAll is s = .next t ∧ t.report = s.report ∧ t.elem r = canon p x

/-- Two sequences of commands complete without a model-level fault, and leave the same limbs in `r`. -/
def Agree (s : State) (is js : List Instr) (r : Reg) : Prop :=
  ∃ t u, execAll is s = .next t ∧ execAll js s = .next u ∧ t.report = s.report ∧ u.report = s.report ∧
    t.elem r = u.elem r

theorem execAll_cons {i : Instr} {s t : State} (h : exec i s = .next t) (is : List Instr) :
    execAll (i :: is) s = execAll is t := by simp only [execAll, h]

section Sequences

variable {p : Params} {s t : State} {i j : Instr} {is js : List Instr} {r rd a b : Reg} {x y : Int}

theorem Holds.of_ok (h : s.operandOk r = true) : Holds s.params s r (s.elemVal r) := ⟨rfl, h, .refl _⟩

/-- What a register holds is kept by a command that writes another one (R31). -/
theorem Holds.kept (h : Holds p s r x) (hw : WritesElem rd s t) (hr : rd ≠ r) : Holds p t r x := by
  have hparams : t.params = s.params := congrArg Setup.params hw.frame.setup
  have helem : t.elem r = s.elem r := hw.frame.elems r fun e => hr (Option.some.inj e)
  exact ⟨hparams.trans h.params, by rw [State.operandOk, hparams, helem]; exact h.ok,
    by rw [State.elemVal, hparams, helem]; exact h.value⟩

theorem Yields.of_looseResult {V : Int} (h : LooseResult rd V x s t) (he : exec i s = .next t) :
    Yields s.params i s rd x := by
  have hparams : t.params = s.params := congrArg Setup.params h.writes.frame.setup
  exact ⟨t, he, h.writes, hparams, by rw [State.operandOk, hparams]; exact h.wf,
    by rw [State.elemVal, hparams]; exact h.congruent⟩

/-- A sequence goes on with what its first command yields. -/
theorem Yields.andThen {z : Int} (h : Yields p i s rd x)
    (k : ∀ t, WritesElem rd s t → Holds p t rd x → Computes p is t r z) : Computes p (i :: is) s r z := by
  obtain ⟨t, he, hw, hx⟩ := h
  obtain ⟨u, hu, hreport, helem⟩ := k t hw hx
  exact ⟨u, (execAll_cons he is).trans hu, hreport.trans hw.report, helem⟩

/-- Sequences that end with NORM of congruent values agree (R155). -/
theorem Agree.of_computes (hp : p.Sound) (h : Computes p is s r x) (h' : Computes p js s r y)
    (hxy : x ≡ y [ZMOD (p.prime : Int)]) : Agree s is js r := by
  obtain ⟨t, ht, hreport, helem⟩ := h
  obtain ⟨u, hu, hreport', helem'⟩ := h'
  exact ⟨t, u, ht, hu, hreport, hreport', by rw [helem, helem', (canon_eq_canon_iff hp).mpr hxy]⟩

/-- Two commands agree where they write the same loose result (R157). -/
theorem Agree.of_writeLoose {V W : Int} (h : exec i s = .next ((s.writeLoose r V).complete .ok))
    (h' : exec j s = .next ((s.writeLoose r W).complete .ok)) (hVW : V = W) : Agree s [i] [j] r := by
  subst hVW
  exact ⟨_, _, execAll_cons h [], execAll_cons h' [], rfl, rfl, rfl⟩

variable (hp : p.Sound)
include hp

/-- NORM as the last command (R153). -/
theorem computes_norm (rd : Reg) (h : Holds p s a x) : Computes p [.norm rd a] s rd x := by
  obtain ⟨rfl, hok, hvalue⟩ := h
  exact ⟨_, execAll_cons (exec_norm_of_ok hok rd) [], rfl,
    (normed_elem_same ..).trans ((canon_eq_canon_iff hp).mpr hvalue)⟩

theorem inWfRange_of_holds (h : Holds p s a x) : InWfRange p (s.elemVal a) := by
  obtain ⟨rfl, hok, -⟩ := h
  exact inWfRange_elemVal hp hok

theorem fold_modEq_of_holds (h : Holds p s a x) : fold p (s.elemVal a) ≡ x [ZMOD (p.prime : Int)] :=
  (fold_modEq hp _).trans h.value

theorem abs_fold_lt_of_holds (h : Holds p s a x) : |fold p (s.elemVal a)| < 2 * 2 ^ p.n :=
  abs_fold_lt hp (inWfRange_of_holds hp h)

/-- ADD adds residues (R182). -/
theorem yields_add (rd : Reg) (ha : Holds p s a x) (hb : Holds p s b y) : Yields p (.add rd a b) s rd (x + y) := by
  have hV := inWfRange_add (abs_fold_lt_of_holds hp ha) (abs_fold_lt_of_holds hp hb)
  have hm := (fold_modEq_of_holds hp ha).add (fold_modEq_of_holds hp hb)
  obtain ⟨rfl, haok, -⟩ := ha
  exact .of_looseResult (looseResult_writeLoose hp rd hV hm) (pairwise_of_ok haok hb.ok rd _)

/-- SUB subtracts them (R183). -/
theorem yields_sub (rd : Reg) (ha : Holds p s a x) (hb : Holds p s b y) : Yields p (.sub rd a b) s rd (x - y) := by
  have hV := inWfRange_sub (abs_fold_lt_of_holds hp ha) (abs_fold_lt_of_holds hp hb)
  have hm := (fold_modEq_of_holds hp ha).sub (fold_modEq_of_holds hp hb)
  obtain ⟨rfl, haok, -⟩ := ha
  exact .of_looseResult (looseResult_writeLoose hp rd hV hm) (pairwise_of_ok haok hb.ok rd _)

/-- NEG negates one (R184). -/
theorem yields_neg (rd : Reg) (ha : Holds p s a x) : Yields p (.neg rd a) s rd (-x) := by
  have hV : InWfRange p (-fold p (s.elemVal a)) :=
    inWfRange_of_abs_lt (by rw [abs_neg]; exact abs_fold_lt_of_holds hp ha)
  have hm := (fold_modEq_of_holds hp ha).neg
  obtain ⟨rfl, haok, -⟩ := ha
  exact .of_looseResult (looseResult_writeLoose hp rd hV hm) (exec_neg_of_ok haok rd)

/-- ADDS adds SCALAR to one (R186). -/
theorem yields_adds (rd : Reg) (ha : Holds p s a x) (hs : inAddRange p s.scalar = true) :
    Yields p (.adds rd a) s rd (x + s.scalarInt) := by
  have hV := inWfRange_add (abs_fold_lt_of_holds hp ha) (abs_toInt_lt hp s.scalar)
  have hm := (fold_modEq_of_holds hp ha).add_right s.scalarInt
  obtain ⟨rfl, haok, -⟩ := ha
  exact .of_looseResult (looseResult_writeLoose hp rd hV hm) (withScalar_of_ok haok hs rd _)

omit hp in
/-- SETI holds SCALAR itself (R286). -/
theorem yields_seti (hp : s.params.Sound) (rd : Reg) (hs : inAddRange s.params s.scalar = true) :
    Yields s.params (.seti rd) s rd s.scalarInt := by
  have hV : InWfRange s.params s.scalarInt := inWfRange_of_abs_lt (abs_toInt_lt hp s.scalar)
  have hw : CommandWrites (.seti rd) s (s.setElem rd (chain s.params s.scalarInt)) :=
    .setElem rfl fun _ => length_chain ..
  refine ⟨_, exec_seti_of_ok hs rd, hw.writesElem rfl rfl, rfl, ?_, ?_⟩
  · rw [State.operandOk, State.complete_ok_elem, State.setElem_elem_same]
    exact wf_chain hp hV.1 hV.2
  · rw [State.elemVal, State.complete_ok_elem, State.setElem_elem_same]
    exact congrArg (· % _) (val_chain hp hV.1 hV.2)

end Sequences

theorem fold_zero (p : Params) : fold p 0 = 0 := by simp [fold]

theorem inAddRange_iff {p : Params} {v : Word} : inAddRange p v = true ↔ p.addMin ≤ v.toInt ∧ v.toInt ≤ p.addMax := by
  rw [inAddRange, Bool.and_eq_true, decide_eq_true_eq, decide_eq_true_eq]

/-- A zero vector is a WF operand of value 0. -/
theorem zero_operand {s : State} (hp : s.params.Sound) {r : Reg} (h : s.elem r = chain s.params 0) :
    s.operandOk r = true ∧ s.elemVal r = 0 := by
  have hzero : InWfRange s.params 0 := inWfRange_of_abs_lt (by rw [abs_zero]; positivity)
  rw [State.operandOk, State.elemVal, h]
  exact ⟨wf_chain hp hzero.1 hzero.2, val_chain hp hzero.1 hzero.2⟩

end Machine

/-- Settles O47. The limb-for-limb laws write the same integer; each side of the others is followed command by command, to
a NORM of the same residue. -/
theorem addSubtractLaws : Obligations.AddSubtractLaws := by
  intro s hdec ok0 ok1 ok2 hzero
  have hp := Params.sound_of_decided hdec
  obtain ⟨ok3, val3⟩ := zero_operand hp hzero
  have h0 := Holds.of_ok ok0
  have h1 := Holds.of_ok ok1
  have h2 := Holds.of_ok ok2
  have sub_eq {r : Reg} (hr : s.operandOk r = true) : exec (.sub 5 r 0) s =
      .next ((s.writeLoose 5 (fold s.params (s.elemVal r) - fold s.params (s.elemVal 0))).complete .ok) :=
    pairwise_of_ok hr ok0 5 _
  refine ⟨?_, fun hexact => ⟨_, sub_eq ok0, ?_⟩, fun hlo hhi => ?_⟩
  · simp only [List.forall_mem_cons, List.not_mem_nil, false_implies, implies_true, and_true]
    refine ⟨?comm, ?assoc, ?neg, ?sub⟩
    case comm =>
      exact Agree.of_writeLoose (pairwise_of_ok ok0 ok1 5 _) (pairwise_of_ok ok1 ok0 5 _) (Int.add_comm ..)
    case assoc =>
      have left : Computes s.params [.add 4 0 1, .add 4 4 2, .norm 5 4] s 5 (s.elemVal 0 + s.elemVal 1 + s.elemVal 2) :=
        (yields_add hp 4 h0 h1).andThen fun _ hw h4 =>
          (yields_add hp 4 h4 (h2.kept hw (by decide))).andThen fun _ _ h => computes_norm hp 5 h
      have right :
          Computes s.params [.add 4 1 2, .add 4 0 4, .norm 5 4] s 5 (s.elemVal 0 + (s.elemVal 1 + s.elemVal 2)) :=
        (yields_add hp 4 h1 h2).andThen fun _ hw h4 =>
          (yields_add hp 4 (h0.kept hw (by decide)) h4).andThen fun _ _ h => computes_norm hp 5 h
      exact Agree.of_computes hp left right (by rw [Int.add_assoc])
    case neg =>
      exact Agree.of_writeLoose (exec_neg_of_ok ok0 5) (sub_eq ok3) (by rw [val3, fold_zero, Int.zero_sub])
    case sub =>
      have left : Computes s.params [.sub 4 0 1, .norm 5 4] s 5 (s.elemVal 0 - s.elemVal 1) :=
        (yields_sub hp 4 h0 h1).andThen fun _ _ h => computes_norm hp 5 h
      have right : Computes s.params [.neg 4 1, .add 4 0 4, .norm 5 4] s 5 (s.elemVal 0 + -s.elemVal 1) :=
        (yields_neg hp 4 h1).andThen fun _ hw h4 =>
          (yields_add hp 4 (h0.kept hw (by decide)) h4).andThen fun _ _ h => computes_norm hp 5 h
      exact Agree.of_computes hp left right (by rw [Int.sub_eq_add_neg])
  · rw [State.complete_ok_elem, State.writeLoose_elem_same, s.looseValue_exact _ hexact, Int.sub_self]
    exact chainK_zero ..
  · have hs : inAddRange s.params s.scalar = true := inAddRange_iff.mpr ⟨hlo, hhi⟩
    have left : Computes s.params [.adds 4 0, .norm 5 4] s 5 (s.elemVal 0 + s.scalarInt) :=
      (yields_adds hp 4 h0 hs).andThen fun _ _ h => computes_norm hp 5 h
    have right : Computes s.params [.seti 4, .add 4 0 4, .norm 5 4] s 5 (s.elemVal 0 + s.scalarInt) :=
      (yields_seti hp 4 hs).andThen fun _ hw h4 =>
        (yields_add hp 4 (h0.kept hw (by decide)) h4).andThen fun _ _ h => computes_norm hp 5 h
    exact Agree.of_computes hp left right (.refl _)

end Sys2Proof
end

section
/-! PROOFS, the data paths of the carry propagator and the limb normalizer (40_limb_model.md R143, R149, R150, R152, R154):
the integers that wrapping words stand for, the carry chain, and REDUCE and NORM. -/

namespace Sys2Proof

open Sys2Proof.Machine Sys2Proof.Safety

/-- c is a small word, and DB leaves 6 bits of a word for carries, on the decided sets (R9). -/
theorem Params.decided_db_c : ∀ p ∈ decided, p.db = 58 ∧ p.c < 2 ^ 16 := by decide

namespace Machine

/-! ### Words as integers -/

section Words

variable {x y : Word}

theorem toInt_add_of_range (h0 : -(2 : Int) ^ 63 ≤ x.toInt + y.toInt) (h1 : x.toInt + y.toInt < 2 ^ 63) :
    (x + y).toInt = x.toInt + y.toInt := by
  rw [BitVec.toInt_add]
  exact Int.bmod_eq_of_le (by omega) (by omega)

theorem toInt_mul_of_range (h0 : -(2 : Int) ^ 63 ≤ x.toInt * y.toInt) (h1 : x.toInt * y.toInt < 2 ^ 63) :
    (x * y).toInt = x.toInt * y.toInt := by
  rw [BitVec.toInt_mul]
  exact Int.bmod_eq_of_le (by omega) (by omega)

theorem toInt_sshiftRight_eq (x : Word) (k : Nat) : (x.sshiftRight k).toInt = x.toInt / 2 ^ k := by
  rw [BitVec.toInt_sshiftRight, Int.shiftRight_eq_div_pow, Nat.cast_pow, Nat.cast_ofNat]

/-- A word's two readings agree mod every power of 2 that it holds. -/
theorem toInt_emod_two_pow {k : Nat} (hk : k ≤ 64) (x : Word) : x.toInt % 2 ^ k = (x.toNat : Int) % 2 ^ k := by
  have hsplit : ((2 ^ 64 : Nat) : Int) = 2 ^ k * 2 ^ (64 - k) := by
    rw [← pow_add, Nat.add_sub_cancel' hk, Nat.cast_pow, Nat.cast_ofNat]
  rw [BitVec.toInt_eq_toNat_cond]
  split
  · rfl
  · rw [hsplit, Int.sub_mul_emod_self_left]

/-- Masking to k bits is reduction mod 2^k, of a signed word too. -/
theorem toInt_and_maskWord {k : Nat} (hk : k < 63) (x : Word) : (x &&& maskWord k).toInt = x.toInt % 2 ^ k := by
  have hle : 2 ^ k ≤ 2 ^ 62 := Nat.pow_le_pow_right (by decide) (by omega)
  have hlt : x.toNat % 2 ^ k < 2 ^ k := Nat.mod_lt _ (by positivity)
  have hnat : (x &&& maskWord k).toNat = x.toNat % 2 ^ k := by
    rw [BitVec.toNat_and, maskWord, BitVec.toNat_ofNat, Nat.mod_eq_of_lt (by omega), Nat.and_two_pow_sub_one_eq_mod]
  rw [toInt_emod_two_pow (by omega), BitVec.toInt_eq_toNat_of_lt (by omega), hnat]
  norm_cast

theorem toInt_cWord {p : Params} (h : p.c < 2 ^ 16) : (cWord p).toInt = p.c := by
  rw [cWord, BitVec.toInt_ofNat']
  exact Int.bmod_eq_of_le (by omega) (by omega)

end Words

theorem toInt_resWord (p : Params) (L : Element) : (resWord p L).toInt = res p L := toInt_sshiftRight_eq ..

/-! ### The carry chain -/

/-- The carry chain chains the value of its limbs and the carry that comes in, as no sum wraps below the top limb: DB ≥ 57
leaves carries in [−64, 63] (R143, R149). -/
theorem carryFrom_eq_chainK {p : Params} (h57 : 57 ≤ p.db) (h61 : p.db ≤ 61) : ∀ (L : Element) (carry : Word), L ≠ [] →
    (∀ l ∈ L, -(2 ^ 63 - 64) ≤ l.toInt ∧ l.toInt ≤ 2 ^ 63 - 64) → -64 ≤ carry.toInt → carry.toInt < 64 →
      carryFrom p carry L = chainK p L.length (val p L + carry.toInt)
  | [], _, hne, _, _, _ => absurd rfl hne
  | [t], carry, _, _, _, _ => by
    have hval : val p [t] + carry.toInt = t.toInt + carry.toInt := by simp [val]
    rw [hval, carryFrom, List.length_singleton, chainK, BitVec.ofInt_add, BitVec.ofInt_toInt, BitVec.ofInt_toInt]
  | t :: u :: ts, carry, _, hlimbs, c0, c1 => by
    have hpos : (0 : Int) < 2 ^ p.db := by positivity
    have hlo : (2 : Int) ^ 57 ≤ 2 ^ p.db := pow_le_pow_right₀ (by norm_num) h57
    obtain ⟨ht, hrest⟩ := List.forall_mem_cons.mp hlimbs
    have hsum : (t + carry).toInt = t.toInt + carry.toInt := toInt_add_of_range (by omega) (by omega)
    have hcarry := toInt_sshiftRight_eq (t + carry) p.db
    have k0 : -64 ≤ (t + carry).toInt / 2 ^ p.db := (Int.le_ediv_iff_mul_le hpos).mpr (by omega)
    have k1 : (t + carry).toInt / 2 ^ p.db < 64 := (Int.ediv_lt_iff_lt_mul hpos).mpr (by omega)
    have hval : val p (t :: u :: ts) + carry.toInt = (t + carry).toInt + 2 ^ p.db * val p (u :: ts) := by
      rw [hsum, val]
      ring
    have hlimb : (t + carry) &&& maskWord p.db = BitVec.ofInt 64 ((t + carry).toInt % 2 ^ p.db) := by
      rw [← toInt_and_maskWord (by omega), BitVec.ofInt_toInt]
    have hnext := carryFrom_eq_chainK h57 h61 (u :: ts) ((t + carry).sshiftRight p.db) (by simp) hrest
      (hcarry ▸ k0) (hcarry ▸ k1)
    rw [carryFrom, hnext, hcarry, hval, List.length_cons (a := t), List.length_cons (a := u), chainK_cons,
      Int.add_mul_emod_self_left, Int.add_mul_ediv_left _ _ hpos.ne', hlimb, Int.add_comm (val p (u :: ts))]

/-- The carry chain from limb 0 (R149). -/
theorem carryChain_eq_chainK {p : Params} (h57 : 57 ≤ p.db) (h61 : p.db ≤ 61) {L : Element} (hne : L ≠ [])
    (hlimbs : ∀ l ∈ L, -(2 ^ 63 - 64) ≤ l.toInt ∧ l.toInt ≤ 2 ^ 63 - 64) :
    carryChain p L = chainK p L.length (val p L) := by
  have h := carryFrom_eq_chainK h57 h61 L 0#64 hne hlimbs (by decide) (by decide)
  rwa [BitVec.toInt_zero, Int.add_zero] at h

end Machine

/-- Settles O55: no sum below the top limb wraps, where DB is 58. -/
theorem carryChainIsChain : Obligations.CarryChainIsChain := by
  intro p t hdec hne hlimbs
  obtain ⟨hdb, -⟩ := Params.decided_db_c p hdec
  exact carryChain_eq_chainK (by omega) (by omega) hne hlimbs

namespace Machine

/-! ### REDUCE and NORM -/

/-- A vector of D limbs in [0, 2^DB), the top one among them, as masking the top limb leaves it (R142). -/
structure Masked (p : Params) (L : Element) : Prop where
  length : L.length = p.numLimbs
  limbs : L.all (lowLimbOk p) = true

section Masked

variable {p : Params} (hp : p.Sound) {L : Element}

theorem lowLimbOk_iff {l : Word} : lowLimbOk p l = true ↔ 0 ≤ l.toInt ∧ l.toInt < 2 ^ p.db := by
  rw [lowLimbOk, Bool.and_eq_true, decide_eq_true_eq, decide_eq_true_eq]

theorem Masked.chain_val (h : Masked p L) : chain p (val p L) = L := by
  rw [chain, ← h.length]
  exact chainK_val p L (List.all_eq_true.mpr fun l hl => List.all_eq_true.mp h.limbs l (List.mem_of_mem_dropLast hl))

include hp

theorem two_pow_db_le : (2 : Int) ^ p.db ≤ 2 ^ 61 := pow_le_pow_right₀ (by norm_num) hp.db_le

theorem toInt_masked_topLimb (L : Element) : (topLimb L &&& maskWord p.hdb).toInt = (topLimb L).toInt % 2 ^ p.hdb :=
  toInt_and_maskWord (by have := hp.hdb_le; have := hp.db_le; omega) _

theorem masked_maskTop (h : wf p L = true) : Masked p (maskTop p L) := by
  have hle : (2 : Int) ^ p.hdb ≤ 2 ^ p.db := pow_le_pow_right₀ (by norm_num) hp.hdb_le
  have hpos : (0 : Int) < 2 ^ p.hdb := by positivity
  have t0 := Int.emod_nonneg (topLimb L).toInt hpos.ne'
  have t1 := Int.emod_lt_of_pos (topLimb L).toInt hpos
  refine ⟨?_, ?_⟩
  · have := hp.two_limbs
    rw [maskTop, List.length_append, List.length_dropLast, length_of_wf h, List.length_singleton]
    omega
  · rw [maskTop, List.all_append, dropLast_low_of_wf h, Bool.true_and, List.all_cons, List.all_nil, Bool.and_true,
      lowLimbOk_iff, toInt_masked_topLimb hp]
    omega

/-- Masking the top limb leaves low (R142). -/
theorem val_maskTop (h : wf p L = true) : val p (maskTop p L) = low p L := by
  rw [maskTop, val_append_singleton, toInt_masked_topLimb hp, List.length_dropLast, length_of_wf h, low]
  ring

/-- Masking the top limb of a chained vector reduces its value mod 2^n (R142, R143). -/
theorem maskTop_chain {V : Int} (hV : InWfRange p V) : maskTop p (chain p V) = chain p (V % 2 ^ p.n) := by
  have hwf := wf_chain hp hV.1 hV.2
  rw [← (masked_maskTop hp hwf).chain_val, val_maskTop hp hwf, low_eq hp hwf, val_chain hp hV.1 hV.2]

/-- A chained vector of n bits needs no masking. -/
theorem masked_chain {V : Int} (h0 : 0 ≤ V) (h1 : V < 2 ^ p.n) : Masked p (chain p V) := by
  have hV : InWfRange p V := inWfRange_of_abs_lt (by rw [abs_of_nonneg h0]; omega)
  have h := maskTop_chain hp hV
  rw [Int.emod_eq_of_lt h0 h1] at h
  exact h ▸ masked_maskTop hp (wf_chain hp hV.1 hV.2)

/-- Adding a word into limb 0 of such a vector does not wrap, and the carry chain then chains the sum (R149, R150). -/
theorem carryChain_addLimb0 (h57 : 57 ≤ p.db) (h : Masked p L) {x : Word} (hx : |x.toInt| ≤ 2 ^ 61) :
    carryChain p (addLimb0 x L) = chain p (val p L + x.toInt) := by
  have hdb := two_pow_db_le hp
  obtain ⟨x0, x1⟩ := abs_le.mp hx
  obtain ⟨hlen, hlimbs⟩ := h
  cases L with
  | nil => exact absurd rfl (ne_nil_of_length hp hlen)
  | cons l ls =>
    have hrange (m : Word) (hm : m ∈ l :: ls) : 0 ≤ m.toInt ∧ m.toInt < 2 ^ p.db :=
      lowLimbOk_iff.mp (List.all_eq_true.mp hlimbs m hm)
    obtain ⟨hl, hls⟩ := List.forall_mem_cons.mp hrange
    have hsum : (l + x).toInt = l.toInt + x.toInt := toInt_add_of_range (by omega) (by omega)
    have hval : val p ((l + x) :: ls) = val p (l :: ls) + x.toInt := by rw [val, val, hsum]; ring
    have hlen' : ((l + x) :: ls).length = p.numLimbs := hlen
    have hbound : ∀ m ∈ (l + x) :: ls, -(2 ^ 63 - 64) ≤ m.toInt ∧ m.toInt ≤ 2 ^ 63 - 64 :=
      List.forall_mem_cons.mpr ⟨by omega, fun m hm => by have := hls m hm; omega⟩
    have hchain := carryChain_eq_chainK h57 hp.db_le (List.cons_ne_nil _ _) hbound
    rwa [hval, hlen'] at hchain

variable (hc : p.c < 2 ^ 16)
include hc

omit hp in
/-- The residual times c does not wrap (R150). -/
theorem toInt_resWord_mul_cWord (h : wf p L = true) : (resWord p L * cWord p).toInt = res p L * p.c := by
  obtain ⟨r0, r1⟩ := res_range h
  rw [toInt_mul_of_range] <;> rw [toInt_resWord, toInt_cWord hc] <;> nlinarith

/-- A residual times c, added into limb 0 and carried on. -/
theorem carryChain_addLimb0_res (h57 : 57 ≤ p.db) (h : Masked p L) {M : Element} (hM : wf p M = true) :
    carryChain p (addLimb0 (resWord p M * cWord p) L) = chain p (val p L + res p M * p.c) := by
  obtain ⟨r0, r1⟩ := res_range hM
  have hmul := toInt_resWord_mul_cWord hc hM
  rw [carryChain_addLimb0 hp h57 h (abs_le.mpr (by rw [hmul]; constructor <;> nlinarith)), hmul]

/-- The data path of REDUCE (R152). -/
theorem reducePath_eq (h57 : 57 ≤ p.db) (h : wf p L = true) : reducePath p L = chain p (fold p (val p L)) := by
  rw [reducePath, foldTop, carryChain_addLimb0_res hp hc h57 (masked_maskTop hp h) h, val_maskTop hp h, fold_val hp h,
    Int.mul_comm]

end Masked

/-- Two folds leave a value of n bits (R152, R154). -/
theorem fold_fold_range {p : Params} (hp : p.Sound) {V : Int} (hV : InWfRange p V) :
    0 ≤ fold p (fold p V) ∧ fold p (fold p V) < 2 ^ p.n := by
  obtain ⟨f0, f1⟩ := fold_range hV.1 hV.2
  obtain ⟨q0, q1⟩ := fold_ediv_range hp hV
  have hdiv := Int.mul_ediv_add_emod (fold p V) (2 ^ p.n)
  have hpos : (0 : Int) < 2 ^ p.n := by positivity
  have m0 := Int.emod_nonneg (fold p V) hpos.ne'
  have m1 := Int.emod_lt_of_pos (fold p V) hpos
  have hc := hp.c_lt
  rw [fold]
  generalize fold p V / 2 ^ p.n = q at *
  interval_cases q <;> omega

/-- NORM's conditional subtraction of p: the residual of the candidate x + c says whether x ≥ p (R154). -/
theorem add_res_emod_two_pow {p : Params} (hp : p.Sound) {x : Int} (h0 : 0 ≤ x) (h1 : x < 2 ^ p.n) :
    (x + (x + p.c) / 2 ^ p.n * p.c) % 2 ^ p.n = x % p.prime := by
  have hprime := hp.prime_eq
  have hc := hp.c_lt
  by_cases hx : x < p.prime
  · have hq : (x + p.c) / 2 ^ p.n = 0 := Int.ediv_eq_zero_of_lt (by omega) (by omega)
    rw [hq, Int.zero_mul, Int.add_zero, Int.emod_eq_of_lt h0 h1, Int.emod_eq_of_lt h0 hx]
  · have hq : (x + p.c) / 2 ^ p.n = 1 := Int.ediv_eq_iff_of_pos (by positivity) |>.mpr (by omega)
    rw [hq, Int.one_mul, ← Int.sub_emod_right, Int.emod_eq_of_lt (by omega) (by omega),
      ← Int.sub_emod_right x, Int.emod_eq_of_lt (by omega) (by omega)]
    omega

/-- The data path of NORM from its second fold on: the candidate x + c, and x or x − p masked to n bits (R154). -/
theorem normalizePath_of_reduced {p : Params} (hp : p.Sound) (hc : p.c < 2 ^ 16) (h57 : 57 ≤ p.db) {a : Element}
    {x : Int} (hd0 : reducePath p (reducePath p a) = chain p x) (h0 : 0 ≤ x) (h1 : x < 2 ^ p.n) :
    normalizePath p a = canon p x := by
  have hsmall := hp.c_lt
  have habs : |x| < 2 * 2 ^ p.n := by rw [abs_of_nonneg h0]; omega
  have hx := inWfRange_of_abs_lt habs
  have hxc : InWfRange p (x + p.c) := inWfRange_add habs (by rw [Nat.abs_cast]; omega)
  have hmasked := masked_chain hp h0 h1
  have hcandidate : carryChain p (addLimb0 (cWord p) (chain p x)) = chain p (x + p.c) := by
    have hcw := toInt_cWord hc
    rw [carryChain_addLimb0 hp h57 hmasked (by rw [hcw, Nat.abs_cast]; omega), hcw, val_chain hp hx.1 hx.2]
  have hwf := wf_chain hp hxc.1 hxc.2
  have hy : InWfRange p (x + res p (chain p (x + p.c)) * p.c) := by
    obtain ⟨r0, r1⟩ := res_range hwf
    exact inWfRange_add habs (abs_lt.mpr (by constructor <;> nlinarith))
  rw [normalizePath, normalizeBuffers, hd0]
  dsimp only
  rw [hcandidate, carryChain_addLimb0_res hp hc h57 hmasked hwf, val_chain hp hx.1 hx.2, maskTop_chain hp hy,
    res_chain hp hxc, add_res_emod_two_pow hp h0 h1, canon]

/-- The data path of NORM (R154). -/
theorem normalizePath_eq {p : Params} (hp : p.Sound) (hc : p.c < 2 ^ 16) (h57 : 57 ≤ p.db) {a : Element}
    (h : wf p a = true) : normalizePath p a = canon p (val p a) := by
  have hV := inWfRange_of_wf hp h
  have hfold := inWfRange_of_abs_lt (abs_fold_lt hp hV)
  have hd0 : reducePath p (reducePath p a) = chain p (fold p (fold p (val p a))) := by
    rw [reducePath_eq hp hc h57 h, reducePath_eq hp hc h57 (wf_chain hp hfold.1 hfold.2), val_chain hp hfold.1 hfold.2]
  obtain ⟨x0, x1⟩ := fold_fold_range hp hV
  rw [normalizePath_of_reduced hp hc h57 hd0 x0 x1]
  exact (canon_eq_canon_iff hp).mpr ((fold_modEq hp _).trans (fold_modEq hp _))

end Machine

/-- Settles O56: the fold is of low and res, and NORM's candidate decides whether p is subtracted. -/
theorem reduceAndNormalizePaths : Obligations.ReduceAndNormalizePaths := by
  intro p a hdec h
  have hp := Params.sound_of_decided hdec
  obtain ⟨hdb, hc⟩ := Params.decided_db_c p hdec
  exact ⟨reducePath_eq hp hc (by omega) h, normalizePath_eq hp hc (by omega) h⟩

end Sys2Proof
end

section
/-! PROOFS, the commands of the adder and the subtractor (41_add_sub.md R182 to R188): what ADD, SUB, NEG, ADDS and SUBS
write from WF operands, and what a SCALAR out of range leaves. -/

namespace Sys2Proof

open Sys2Proof.Machine Sys2Proof.Safety

namespace Machine

section Runs

variable {s : State} {i : Instr} {rd a : Reg}

theorem withScalar_of_not_ok (ha : s.operandOk a = true) {ok : Bool} (hok : ok = false) (rd : Reg) (V : Int) :
    withScalar s rd a ok V = .next ((s.ubElem .scalar rd).complete .ok) :=
  (if_pos ha).trans (if_neg (Bool.eq_false_iff.mp hok))

/-- A command whose SCALAR is out of its range (R188, R220): it passes its operand check, and fails its scalar check. -/
theorem exec_of_scalar_out_of_range (hd : destination i = some rd) (hs : scalarInRange s.params s.scalar i = false)
    (hok : ∀ r ∈ checkedSources i, s.operandOk r = true) :
    exec i s = .next ((s.ubElem .scalar rd).complete .ok) := by
  cases i with
  | adds rd' a | subs rd' a | muls rd' a =>
    obtain rfl := Option.some.inj hd
    exact withScalar_of_not_ok (hok a List.mem_cons_self) ((Bool.decide_and ..).symm.trans hs) rd' _
  | seti rd' =>
    obtain rfl := Option.some.inj hd
    exact if_neg (Bool.eq_false_iff.mp ((Bool.decide_and ..).symm.trans hs))
  | _ => cases hs

end Runs

end Machine

/-- Settles O33: the sum, the difference and the negation of folds are in the WF range, and a fold is low + c·res. -/
theorem addSubNegResults : Obligations.AddSubNegResults := by
  intro s rd rs1 rs2 hdec ok1 ok2
  have hp := Params.sound_of_decided hdec
  have range1 := abs_fold_lt hp (inWfRange_elemVal hp ok1)
  have range2 := abs_fold_lt hp (inWfRange_elemVal hp ok2)
  have mod1 := fold_modEq hp (s.elemVal rs1)
  have mod2 := fold_modEq hp (s.elemVal rs2)
  have fold1 : fold s.params (s.elemVal rs1) = _ := fold_val hp ok1
  have fold2 : fold s.params (s.elemVal rs2) = _ := fold_val hp ok2
  dsimp only
  refine ⟨⟨_, pairwise_of_ok ok1 ok2 rd _, ?add⟩, ⟨_, pairwise_of_ok ok1 ok2 rd _, ?sub⟩,
    ⟨_, exec_neg_of_ok ok1 rd, ?neg⟩⟩
  case add =>
    rw [Int.mul_add, add_add_add_comm, ← fold1, ← fold2]
    exact looseResult_writeLoose hp rd (inWfRange_add range1 range2) (mod1.add mod2)
  case sub =>
    rw [Int.mul_sub, sub_add_sub_comm, ← fold1, ← fold2]
    exact looseResult_writeLoose hp rd (inWfRange_sub range1 range2) (mod1.sub mod2)
  case neg =>
    rw [← fold1]
    exact looseResult_writeLoose hp rd (inWfRange_of_abs_lt (by rwa [abs_neg])) mod1.neg

/-- Settles O34: a fold and SCALAR add to a value of the WF range, whatever SCALAR is (R8(f)). -/
theorem addsSubsResults : Obligations.AddsSubsResults := by
  intro s rd rs1 hdec ok1 hlo hhi
  have hp := Params.sound_of_decided hdec
  have hs : inAddRange s.params s.scalar = true := inAddRange_iff.mpr ⟨hlo, hhi⟩
  have hrange := abs_fold_lt hp (inWfRange_elemVal hp ok1)
  have hscalar := abs_toInt_lt hp s.scalar
  have hmod := fold_modEq hp (s.elemVal rs1)
  dsimp only
  rw [← fold_val hp ok1]
  refine ⟨⟨_, withScalar_of_ok ok1 hs rd _, ?adds⟩, ⟨_, withScalar_of_ok ok1 hs rd _, ?subs⟩⟩
  case adds => exact looseResult_writeLoose hp rd (inWfRange_add hrange hscalar) (hmod.add_right _)
  case subs => exact looseResult_writeLoose hp rd (inWfRange_sub hrange hscalar) (hmod.sub_right _)

/-- Settles O51: the scalar check of each command that reads SCALAR. -/
theorem outOfRangeScalarLeavesRdUnspecified : Obligations.OutOfRangeScalarLeavesRdUnspecified := by
  intro s i rd hd hs hok
  have hw : CommandWrites i s (s.ubElem .scalar rd) := .ubElem hd _
  exact ⟨_, exec_of_scalar_out_of_range hd hs hok, hw.completed .ok,
    changesOnly_complete (hw.frame_of_destination hd) .ok, s.ubElem_elem_same .scalar rd, rfl, rfl⟩

end Sys2Proof
end

section
/-! PROOFS, the data paths of the adder and the subtractor (41_add_sub.md R181, R185): sums and differences of words as
integers, a word added into limb 0 of a vector with room for it, limb-by-limb sums, and the 65-bit limb-0 adder. -/

namespace Sys2Proof

open Sys2Proof.Machine Sys2Proof.Safety

namespace Machine

/-- σ of R181 and R185: −1 where `neg` is set. -/
def sigma (neg : Bool) : Int := if neg then -1 else 1

@[simp] theorem sigma_false : sigma false = 1 := rfl

@[simp] theorem sigma_true : sigma true = -1 := rfl

theorem abs_sigma_mul (neg : Bool) (x : Int) : |sigma neg * x| = |x| := by cases neg <;> simp

/-! ### Sums, differences and truncations as integers -/

/-- The value of a sum or difference that fits its width. -/
theorem toInt_ite_sub_add {w : Nat} {x y : BitVec (w + 1)} {neg : Bool}
    (h : |x.toInt + sigma neg * y.toInt| < 2 ^ w) :
    (if neg then x - y else x + y).toInt = x.toInt + sigma neg * y.toInt := by
  have hmod : (if neg then x - y else x + y).toInt = (x.toInt + sigma neg * y.toInt).bmod (2 ^ (w + 1)) := by
    cases neg with
    | false => simp [BitVec.toInt_add]
    | true => simp [BitVec.toInt_sub, Int.sub_eq_add_neg]
  have hcast : ((2 ^ (w + 1) : Nat) : Int) = 2 * 2 ^ w := by push_cast; ring
  obtain ⟨h0, h1⟩ := abs_lt.mp h
  rw [hmod]
  exact Int.bmod_eq_of_le (by omega) (by omega)

/-- A truncated word keeps its residues mod the powers of 2 that fit. -/
theorem toInt_setWidth_emod {k : Nat} (hk : k ≤ 64) (x : BitVec 65) :
    (x.setWidth 64).toInt % 2 ^ k = x.toInt % 2 ^ k := by
  have h64 : (x.setWidth 64).toInt % 2 ^ 64 = x.toInt % 2 ^ 64 := by
    rw [BitVec.toInt_eq_toNat_cond, BitVec.toInt_eq_toNat_cond, BitVec.toNat_setWidth]
    omega
  have hdvd : (2 : Int) ^ k ∣ 2 ^ 64 := pow_dvd_pow 2 hk
  rw [← Int.emod_emod_of_dvd _ hdvd, h64, Int.emod_emod_of_dvd _ hdvd]

/-- A truncated word keeps a value that fits. -/
theorem toInt_setWidth_of_range {x : BitVec 65} (h : |x.toInt| < 2 ^ 63) : (x.setWidth 64).toInt = x.toInt := by
  have hmod := toInt_setWidth_emod (k := 64) (by decide) x
  have hlo := (x.setWidth 64).le_toInt
  have hhi := (x.setWidth 64).toInt_lt
  obtain ⟨h0, h1⟩ := abs_lt.mp h
  omega

/-! ### A word added into limb 0 -/

section AddLimb0

variable {p : Params} {L : Element} {x : Word}

@[simp] theorem length_addLimb0 (x : Word) : ∀ L : Element, (addLimb0 x L).length = L.length
  | [] => rfl
  | _ :: _ => rfl

variable (hL : ∀ l ∈ L, |l.toInt| ≤ 2 ^ 62) (hx : |x.toInt| ≤ 2 ^ 61)
include hL hx

theorem toInt_limb0_add {l : Word} (hl : l ∈ L) : (l + x).toInt = l.toInt + x.toInt := by
  obtain ⟨l0, l1⟩ := abs_le.mp (hL l hl)
  obtain ⟨x0, x1⟩ := abs_le.mp hx
  exact toInt_add_of_range (by omega) (by omega)

theorem val_addLimb0 (hne : L ≠ []) : val p (addLimb0 x L) = val p L + x.toInt := by
  cases L with
  | nil => exact absurd rfl hne
  | cons l ls =>
    rw [addLimb0, val, val, toInt_limb0_add hL hx List.mem_cons_self]
    ring

/-- Such a sum leaves the carry chain its room (R149). -/
theorem limbs_addLimb0 : ∀ m ∈ addLimb0 x L, -(2 ^ 63 - 64) ≤ m.toInt ∧ m.toInt ≤ 2 ^ 63 - 64 := by
  have room {m : Word} (h : |m.toInt| ≤ 2 ^ 62 + 2 ^ 61) : -(2 ^ 63 - 64) ≤ m.toInt ∧ m.toInt ≤ 2 ^ 63 - 64 := by
    obtain ⟨h0, h1⟩ := abs_le.mp h
    omega
  cases L with
  | nil => exact fun m hm => absurd hm List.not_mem_nil
  | cons l ls =>
    obtain ⟨hl, hls⟩ := List.forall_mem_cons.mp hL
    refine List.forall_mem_cons.mpr ⟨room ?_, fun m hm => room ((hls m hm).trans (by norm_num))⟩
    rw [toInt_limb0_add hL hx List.mem_cons_self]
    exact (abs_add_le ..).trans (add_le_add hl hx)

/-- The carry chain then chains the sum. -/
theorem carryChain_addLimb0_of_room (hp : p.Sound) (h57 : 57 ≤ p.db) (hlen : L.length = p.numLimbs) :
    carryChain p (addLimb0 x L) = chain p (val p L + x.toInt) := by
  have hne := ne_nil_of_length hp hlen
  have hne' : addLimb0 x L ≠ [] := ne_nil_of_length hp ((length_addLimb0 x L).trans hlen)
  rw [carryChain_eq_chainK h57 hp.db_le hne' (limbs_addLimb0 hL hx), length_addLimb0, hlen,
    val_addLimb0 hL hx hne, chain]

end AddLimb0

/-- The magnitude of a WF vector's residual (R141, R144). -/
theorem abs_res_le {p : Params} {L : Element} (h : wf p L = true) : |res p L| ≤ 4 := by
  obtain ⟨r0, r1⟩ := res_range h
  exact abs_le.mpr (by omega)

/-! ### The pairwise path -/

section Pairwise

variable {p : Params} {A B : Element} {neg : Bool}

theorem length_combine : ∀ {A B : Element}, A.length = B.length → (combine neg A B).length = A.length
  | [], [], _ => rfl
  | _ :: _, _ :: _, h => congrArg (· + 1) (length_combine (Nat.succ.inj h))

variable (hdb : p.db ≤ 61)
include hdb

/-- A sum or difference of two limbs of DB bits fits a word (R181). -/
theorem toInt_combine_limb {a b : Word} (ha : lowLimbOk p a = true) (hb : lowLimbOk p b = true) :
    (if neg then a - b else a + b).toInt = a.toInt + sigma neg * b.toInt ∧
      |a.toInt + sigma neg * b.toInt| ≤ 2 ^ 62 := by
  have hle : (2 : Int) ^ p.db ≤ 2 ^ 61 := pow_le_pow_right₀ (by norm_num) hdb
  obtain ⟨a0, a1⟩ := lowLimbOk_iff.mp ha
  obtain ⟨b0, b1⟩ := lowLimbOk_iff.mp hb
  have hsum : |a.toInt + sigma neg * b.toInt| ≤ 2 ^ 62 :=
    calc |a.toInt + sigma neg * b.toInt| ≤ |a.toInt| + |b.toInt| := abs_sigma_mul neg b.toInt ▸ abs_add_le ..
      _ ≤ 2 ^ 62 := by rw [abs_of_nonneg a0, abs_of_nonneg b0]; omega
  exact ⟨toInt_ite_sub_add (hsum.trans_lt (by norm_num)), hsum⟩

theorem limbs_combine : ∀ {A B : Element}, A.all (lowLimbOk p) = true → B.all (lowLimbOk p) = true →
    ∀ l ∈ combine neg A B, |l.toInt| ≤ 2 ^ 62
  | a :: as, b :: bs, hA, hB => by
    obtain ⟨ha, has⟩ := Bool.and_eq_true_iff.mp hA
    obtain ⟨hb, hbs⟩ := Bool.and_eq_true_iff.mp hB
    obtain ⟨hsum, habs⟩ := toInt_combine_limb hdb ha hb
    exact List.forall_mem_cons.mpr ⟨hsum ▸ habs, limbs_combine has hbs⟩
  | [], _, _, _ => by simp [combine]
  | _ :: _, [], _, _ => by simp [combine]

theorem val_combine : ∀ {A B : Element}, A.length = B.length → A.all (lowLimbOk p) = true →
    B.all (lowLimbOk p) = true → val p (combine neg A B) = val p A + sigma neg * val p B
  | [], [], _, _, _ => by simp [combine, val]
  | a :: as, b :: bs, hlen, hA, hB => by
    obtain ⟨ha, has⟩ := Bool.and_eq_true_iff.mp hA
    obtain ⟨hb, hbs⟩ := Bool.and_eq_true_iff.mp hB
    obtain ⟨hsum, -⟩ := toInt_combine_limb (neg := neg) hdb ha hb
    rw [combine, val, val, val, hsum, val_combine (Nat.succ.inj hlen) has hbs]
    ring

omit hdb
variable (hp : p.Sound) (h57 : 57 ≤ p.db)
include hp h57

/-- The pairwise adder and subtractor from the masked operands on: a carry-in at limb 0, and the carry chain (R181). -/
theorem carryChain_addLimb0_combine (hA : Masked p A) (hB : Masked p B) {x : Word} (hx : |x.toInt| ≤ 2 ^ 61) :
    carryChain p (addLimb0 x (combine neg A B)) = chain p (val p A + sigma neg * val p B + x.toInt) := by
  have hlen : A.length = B.length := hA.length.trans hB.length.symm
  rw [carryChain_addLimb0_of_room (limbs_combine hp.db_le hA.limbs hB.limbs) hx hp h57
    ((length_combine hlen).trans hA.length), val_combine hp.db_le hlen hA.limbs hB.limbs]

omit hp h57
variable (hc : p.c < 2 ^ 16)
include hc

/-- The residual carries times c, the carry-in at limb 0, do not wrap (R181). -/
theorem toInt_carryIn {a b : Element} (ha : wf p a = true) (hb : wf p b = true) (neg : Bool) :
    ((if neg then resWord p a - resWord p b else resWord p a + resWord p b) * cWord p).toInt =
      (res p a + sigma neg * res p b) * p.c ∧ |(res p a + sigma neg * res p b) * p.c| ≤ 2 ^ 61 := by
  have hres : |res p a + sigma neg * res p b| ≤ 4 + 4 :=
    calc |res p a + sigma neg * res p b| ≤ |res p a| + |res p b| := abs_sigma_mul neg (res p b) ▸ abs_add_le ..
      _ ≤ 4 + 4 := add_le_add (abs_res_le ha) (abs_res_le hb)
  have hk : (if neg then resWord p a - resWord p b else resWord p a + resWord p b).toInt =
      res p a + sigma neg * res p b := by
    rw [← toInt_resWord, ← toInt_resWord] at hres ⊢
    exact toInt_ite_sub_add (hres.trans_lt (by norm_num))
  have hkc : |(res p a + sigma neg * res p b) * p.c| ≤ 2 ^ 61 := by
    rw [abs_mul, Nat.abs_cast]
    nlinarith
  obtain ⟨h0, h1⟩ := abs_le.mp hkc
  refine ⟨?_, hkc⟩
  rw [toInt_mul_of_range] <;> rw [hk, toInt_cWord hc] <;> omega

include hp h57

/-- The data path of ADD and SUB (R181). -/
theorem addsubPath_eq {a b : Element} (ha : wf p a = true) (hb : wf p b = true) (neg : Bool) :
    addsubPath p a b neg = chain p (fold p (val p a) + sigma neg * fold p (val p b)) := by
  obtain ⟨hkc, hsmall⟩ := toInt_carryIn hc ha hb neg
  rw [addsubPath, carryChain_addLimb0_combine hp h57 (masked_maskTop hp ha) (masked_maskTop hp hb) (hkc ▸ hsmall), hkc,
    val_maskTop hp ha, val_maskTop hp hb, fold_val hp ha, fold_val hp hb]
  congr 1
  ring

end Pairwise

/-! ### The scalar path -/

section Scalar

variable {p : Params} {t0 s kc : Word} {ts : Element} {neg : Bool}

/-- The limb-0 adder does not wrap, for any SCALAR (R185). -/
theorem toInt_limb0Sum (ht : |t0.toInt| ≤ 2 ^ 61) (hkc : |kc.toInt| ≤ 2 ^ 61) :
    (limb0Sum t0 s kc neg).toInt = t0.toInt + sigma neg * s.toInt + kc.toInt := by
  have extend (x : Word) : (x.signExtend 65).toInt = x.toInt := BitVec.toInt_signExtend_of_le (by decide)
  have hs : |sigma neg * s.toInt| ≤ 2 ^ 63 := by
    rw [abs_sigma_mul]
    exact abs_le.mpr ⟨s.le_toInt, s.toInt_lt.le⟩
  have hts : |t0.toInt + sigma neg * s.toInt| ≤ 2 ^ 61 + 2 ^ 63 := (abs_add_le ..).trans (add_le_add ht hs)
  have hsum : |t0.toInt + sigma neg * s.toInt + kc.toInt| ≤ 2 ^ 61 + 2 ^ 63 + 2 ^ 61 :=
    (abs_add_le ..).trans (add_le_add hts hkc)
  have hfirst : (if neg then t0.signExtend 65 - s.signExtend 65 else t0.signExtend 65 + s.signExtend 65).toInt =
      t0.toInt + sigma neg * s.toInt := by
    rw [toInt_ite_sub_add] <;> rw [extend, extend]
    exact hts.trans_lt (by norm_num)
  rw [limb0Sum, BitVec.toInt_add, hfirst, extend]
  obtain ⟨h0, h1⟩ := abs_le.mp hsum
  exact Int.bmod_eq_of_le (by omega) (by omega)

variable (hp : p.Sound) (h57 : 57 ≤ p.db)
include hp h57

/-- The scalar adder and subtractor from the 65-bit sum on: its low DB bits in limb 0, the rest carried into limb 1, and
the carry chain (R185). -/
theorem carryChain_wideLimb0 (h : Masked p (t0 :: ts)) (x : BitVec 65) :
    carryChain p ((x.setWidth 64 &&& maskWord p.db) :: addLimb0 ((x.sshiftRight p.db).setWidth 64) ts) =
      chain p (val p (t0 :: ts) - t0.toInt + x.toInt) := by
  have hdb := hp.db_le
  have hle := two_pow_db_le hp
  have hpos : (0 : Int) < 2 ^ p.db := by positivity
  have hshift : (x.sshiftRight p.db).toInt = x.toInt / 2 ^ p.db := by
    rw [BitVec.toInt_sshiftRight, Int.shiftRight_eq_div_pow, Nat.cast_pow, Nat.cast_ofNat]
  have hquot : |x.toInt / 2 ^ p.db| ≤ 2 ^ 7 := abs_ediv_two_pow_le <|
    calc |x.toInt| ≤ 2 ^ 7 * 2 ^ 57 := abs_le.mpr ⟨x.le_toInt, x.toInt_lt.le⟩
      _ ≤ 2 ^ 7 * 2 ^ p.db := by gcongr; norm_num
  have hcarry : ((x.sshiftRight p.db).setWidth 64).toInt = x.toInt / 2 ^ p.db := by
    rw [toInt_setWidth_of_range] <;> rw [hshift]
    exact hquot.trans_lt (by norm_num)
  have hlimb0 : (x.setWidth 64 &&& maskWord p.db).toInt = x.toInt % 2 ^ p.db := by
    rw [toInt_and_maskWord (by omega), toInt_setWidth_emod (by omega)]
  have m0 := Int.emod_nonneg x.toInt hpos.ne'
  have m1 := Int.emod_lt_of_pos x.toInt hpos
  have hts : ∀ l ∈ ts, |l.toInt| ≤ 2 ^ 62 := fun l hl => by
    obtain ⟨l0, l1⟩ := lowLimbOk_iff.mp (List.all_eq_true.mp h.limbs l (List.mem_cons_of_mem _ hl))
    exact abs_le.mpr (by omega)
  have hne : ts ≠ [] := by
    rintro rfl
    have hone : 1 = p.numLimbs := h.length
    have := hp.two_limbs
    omega
  have hroom : |((x.sshiftRight p.db).setWidth 64).toInt| ≤ 2 ^ 61 := hcarry ▸ hquot.trans (by norm_num)
  rw [carryChain_eq_chainK h57 hdb (List.cons_ne_nil _ _)
    (List.forall_mem_cons.mpr ⟨by omega, limbs_addLimb0 hts hroom⟩), List.length_cons, length_addLimb0,
    ← List.length_cons, h.length, val, val_addLimb0 hts hroom hne, hlimb0, hcarry, val, chain]
  congr 1
  linear_combination Int.emod_add_mul_ediv x.toInt (2 ^ p.db)

/-- The data path of ADDS and SUBS, for any SCALAR (R185). -/
theorem addsubScalarPath_eq (hc : p.c < 2 ^ 16) {a : Element} (ha : wf p a = true) (s : Word) (neg : Bool) :
    addsubScalarPath p a s neg = chain p (fold p (val p a) + sigma neg * s.toInt) := by
  have hmasked := masked_maskTop hp ha
  have hval := val_maskTop hp ha
  have hkc := toInt_resWord_mul_cWord hc ha
  have hkcSmall : |(resWord p a * cWord p).toInt| ≤ 2 ^ 61 := by
    rw [hkc, abs_mul, Nat.abs_cast]
    nlinarith [abs_res_le ha]
  cases ht : maskTop p a with
  | nil => exact absurd ht (ne_nil_of_length hp hmasked.length)
  | cons t0 ts =>
    rw [ht] at hmasked hval
    obtain ⟨l0, l1⟩ := lowLimbOk_iff.mp (List.all_eq_true.mp hmasked.limbs t0 List.mem_cons_self)
    have ht0 : |t0.toInt| ≤ 2 ^ 61 := by
      rw [abs_of_nonneg l0]
      exact l1.le.trans (two_pow_db_le hp)
    simp only [addsubScalarPath, ht]
    rw [carryChain_wideLimb0 hp h57 hmasked, toInt_limb0Sum ht0 hkcSmall, hkc, hval, fold_val hp ha]
    congr 1
    ring

end Scalar

end Machine

/-- Settles O57: neither path wraps, and the masked operands and the carry-in add up to folds. SCALAR needs no
bound here. -/
theorem addSubPaths : Obligations.AddSubPaths := by
  intro p a b v hdec ha
  have hp := Params.sound_of_decided hdec
  obtain ⟨hdb, hc⟩ := Params.decided_db_c p hdec
  have h57 : 57 ≤ p.db := by omega
  have pairwise (hb : wf p b = true) := addsubPath_eq hp h57 hc ha hb
  have scalar := addsubScalarPath_eq hp h57 hc ha v
  refine ⟨fun hb => ⟨?_, ?_⟩, fun _ _ => ⟨?_, ?_⟩⟩
  · rw [pairwise hb, sigma_false, Int.one_mul]
  · rw [pairwise hb, sigma_true, Int.neg_one_mul, Int.sub_eq_add_neg]
  · rw [scalar, sigma_false, Int.one_mul]
  · rw [scalar, sigma_true, Int.neg_one_mul, Int.sub_eq_add_neg]

end Sys2Proof
end

section
/-! PROOFS, the commands of the multiplier and the squarer (42_mul_square.md R218 to R220, R223, R224): what MUL, SQR and
MULS write from WF operands, and the laws of multiply. -/

namespace Sys2Proof

open Sys2Proof.Machine Sys2Proof.Safety

namespace Machine

/-- The reduced product keeps the residue mod p (R218). -/
theorem reduceProduct_modEq {p : Params} (hp : p.Sound) (P : Int) : reduceProduct p P ≡ P [ZMOD (p.prime : Int)] :=
  calc reduceProduct p P ≡ fold p P [ZMOD (p.prime : Int)] := (fold_modEq hp _).add_left _
    _ ≡ P [ZMOD (p.prime : Int)] := fold_modEq hp P

/-- The check of MULS's SCALAR is its range (R10). -/
theorem inMulRange_iff {p : Params} {v : Word} : inMulRange p v = true ↔ p.mulMin ≤ v.toInt ∧ v.toInt ≤ p.mulMax := by
  rw [inMulRange, Bool.and_eq_true, decide_eq_true_eq, decide_eq_true_eq]

section Products

variable {p : Params} {s : State} {a b : Reg} {x y : Int}

theorem exec_mul_of_ok (ha : s.operandOk a = true) (hb : s.operandOk b = true) (rd : Reg) :
    exec (.mul rd a b) s =
      .next ((s.writeLoose rd (reduceProduct s.params (s.elemVal a * s.elemVal b))).complete .ok) :=
  pairwise_of_ok ha hb rd _

/-- SQR is MUL of the register by itself (R219). -/
theorem exec_sqr_of_ok (ha : s.operandOk a = true) (rd : Reg) :
    exec (.sqr rd a) s =
      .next ((s.writeLoose rd (reduceProduct s.params (s.elemVal a * s.elemVal a))).complete .ok) :=
  pairwise_of_ok ha ha rd _

theorem exec_muls_of_ok (ha : s.operandOk a = true) (hs : inMulRange s.params s.scalar = true) (rd : Reg) :
    exec (.muls rd a) s =
      .next ((s.writeLoose rd (fold s.params (s.elemVal a * s.scalarInt))).complete .ok) :=
  withScalar_of_ok ha hs rd _

variable (hp : p.Sound)
include hp

/-- What MUL writes from registers that hold x and y (R218). -/
theorem looseResult_mul (rd : Reg) (ha : Holds p s a x) (hb : Holds p s b y) :
    LooseResult rd (reduceProduct p (s.elemVal a * s.elemVal b)) (x * y) s
      ((s.writeLoose rd (reduceProduct p (s.elemVal a * s.elemVal b))).complete .ok) := by
  have hV := inWfRange_reduceProduct hp (inWfRange_of_holds hp ha) (inWfRange_of_holds hp hb)
  have hm := (reduceProduct_modEq hp (s.elemVal a * s.elemVal b)).trans (ha.value.mul hb.value)
  obtain ⟨rfl, -, -⟩ := ha
  exact looseResult_writeLoose hp rd hV hm

/-- What MULS writes from a register that holds x (R220). -/
theorem looseResult_muls (hmdb : p.mdb ≤ 32) (rd : Reg) (ha : Holds p s a x) (hs : inMulRange p s.scalar = true) :
    LooseResult rd (fold p (s.elemVal a * s.scalarInt)) (x * s.scalarInt) s
      ((s.writeLoose rd (fold p (s.elemVal a * s.scalarInt))).complete .ok) := by
  have hV := inWfRange_fold_mul hp (inWfRange_of_holds hp ha) (abs_toInt_le_of_inMulRange hmdb hs)
  have hm := (fold_modEq hp (s.elemVal a * s.scalarInt)).trans (ha.value.mul_right s.scalarInt)
  obtain ⟨rfl, -, -⟩ := ha
  exact looseResult_writeLoose hp rd hV hm

/-- MUL multiplies residues (R218). -/
theorem yields_mul (rd : Reg) (ha : Holds p s a x) (hb : Holds p s b y) : Yields p (.mul rd a b) s rd (x * y) := by
  have h := looseResult_mul hp rd ha hb
  obtain ⟨rfl, hok, -⟩ := ha
  exact .of_looseResult h (exec_mul_of_ok hok hb.ok rd)

/-- MULS multiplies one by SCALAR (R220). -/
theorem yields_muls (hmdb : p.mdb ≤ 32) (rd : Reg) (ha : Holds p s a x) (hs : inMulRange p s.scalar = true) :
    Yields p (.muls rd a) s rd (x * s.scalarInt) := by
  have h := looseResult_muls hp hmdb rd ha hs
  obtain ⟨rfl, hok, -⟩ := ha
  exact .of_looseResult h (exec_muls_of_ok hok hs rd)

end Products

end Machine

/-- Settles O35: the reduced product is in the WF range and congruent to the product. -/
theorem mulSqrResults : Obligations.MulSqrResults := by
  intro s rd rs1 rs2 hdec ok1 ok2
  have hp := Params.sound_of_decided hdec
  have h1 := Holds.of_ok ok1
  rw [pow_two]
  exact ⟨⟨_, exec_mul_of_ok ok1 ok2 rd, looseResult_mul hp rd h1 (.of_ok ok2)⟩,
    ⟨_, exec_sqr_of_ok ok1 rd, looseResult_mul hp rd h1 h1⟩⟩

/-- Settles O36: a product by SCALAR has at most 34 bits above 2^n, so that one fold brings it into the WF range. -/
theorem mulsResult : Obligations.MulsResult := by
  intro s rd rs1 hdec ok1 hlo hhi
  have hs : inMulRange s.params s.scalar = true := inMulRange_iff.mpr ⟨hlo, hhi⟩
  have hloose := looseResult_muls (Params.sound_of_decided hdec) (Params.decided_mdb_le _ hdec) rd (Holds.of_ok ok1) hs
  exact ⟨_, exec_muls_of_ok ok1 hs rd, hloose, hloose.wf⟩

/-- Settles O48. MUL is commutative as it writes the same integer, and SQR is MUL; each side of the other laws is followed
command by command, to a NORM of the same residue. -/
theorem multiplicationLaws : Obligations.MultiplicationLaws := by
  intro s hdec ok0 ok1 ok2
  have hp := Params.sound_of_decided hdec
  have h0 := Holds.of_ok ok0
  have h1 := Holds.of_ok ok1
  have h2 := Holds.of_ok ok2
  refine ⟨?_, fun mulLo mulHi addLo addHi => ?muls⟩
  · simp only [List.forall_mem_cons, List.not_mem_nil, false_implies, implies_true, and_true]
    refine ⟨?comm, ?assoc, ?distrib, ?sqr⟩
    case comm =>
      exact Agree.of_writeLoose (exec_mul_of_ok ok0 ok1 5) (exec_mul_of_ok ok1 ok0 5) (by rw [Int.mul_comm])
    case assoc =>
      have left : Computes s.params [.mul 4 0 1, .mul 4 4 2, .norm 5 4] s 5 (s.elemVal 0 * s.elemVal 1 * s.elemVal 2) :=
        (yields_mul hp 4 h0 h1).andThen fun _ hw h4 =>
          (yields_mul hp 4 h4 (h2.kept hw (by decide))).andThen fun _ _ h => computes_norm hp 5 h
      have right :
          Computes s.params [.mul 4 1 2, .mul 4 0 4, .norm 5 4] s 5 (s.elemVal 0 * (s.elemVal 1 * s.elemVal 2)) :=
        (yields_mul hp 4 h1 h2).andThen fun _ hw h4 =>
          (yields_mul hp 4 (h0.kept hw (by decide)) h4).andThen fun _ _ h => computes_norm hp 5 h
      exact Agree.of_computes hp left right (by rw [Int.mul_assoc])
    case distrib =>
      have left :
          Computes s.params [.add 4 1 2, .mul 4 0 4, .norm 5 4] s 5 (s.elemVal 0 * (s.elemVal 1 + s.elemVal 2)) :=
        (yields_add hp 4 h1 h2).andThen fun _ hw h4 =>
          (yields_mul hp 4 (h0.kept hw (by decide)) h4).andThen fun _ _ h => computes_norm hp 5 h
      have right : Computes s.params [.mul 3 0 1, .mul 4 0 2, .add 4 3 4, .norm 5 4] s 5
          (s.elemVal 0 * s.elemVal 1 + s.elemVal 0 * s.elemVal 2) :=
        (yields_mul hp 3 h0 h1).andThen fun _ hw h3 =>
          (yields_mul hp 4 (h0.kept hw (by decide)) (h2.kept hw (by decide))).andThen fun _ hw' h4 =>
            (yields_add hp 4 (h3.kept hw' (by decide)) h4).andThen fun _ _ h => computes_norm hp 5 h
      exact Agree.of_computes hp left right (by rw [Int.mul_add])
    case sqr => exact Agree.of_writeLoose (exec_sqr_of_ok ok0 5) (exec_mul_of_ok ok0 ok0 5) rfl
  case muls =>
    have hmul : inMulRange s.params s.scalar = true := inMulRange_iff.mpr ⟨mulLo, mulHi⟩
    have hadd : inAddRange s.params s.scalar = true := inAddRange_iff.mpr ⟨addLo, addHi⟩
    have left : Computes s.params [.muls 4 0, .norm 5 4] s 5 (s.elemVal 0 * s.scalarInt) :=
      (yields_muls hp (Params.decided_mdb_le _ hdec) 4 h0 hmul).andThen fun _ _ h => computes_norm hp 5 h
    have right : Computes s.params [.seti 4, .mul 4 0 4, .norm 5 4] s 5 (s.elemVal 0 * s.scalarInt) :=
      (yields_seti hp 4 hadd).andThen fun _ hw h4 =>
        (yields_mul hp 4 (h0.kept hw (by decide)) h4).andThen fun _ _ h => computes_norm hp 5 h
    exact Agree.of_computes hp left right (.refl _)

end Sys2Proof
end

section
/-! PROOFS, the data paths of the multiplier and the squarer (42_mul_square.md R210 to R217, R222): words of integers, chained
vectors cut at a limb and at bit n, half-limbs and their columns, and the multiply and MULS paths. -/

namespace Sys2Proof

open Sys2Proof.Machine Sys2Proof.Safety

/-- The widths that leave the multiplier's sums room in a word; the decided sets have them (R9, R221). -/
structure Params.MulRoom (p : Params) : Prop extends p.Sound where
  db_eq : p.db = 58
  mdb_eq : p.mdb = 29
  limbs_le : p.numLimbs ≤ 9
  top_le : p.hdb ≤ 48
  c_lt_byte : p.c < 2 ^ 8

theorem Params.mulRoom_of_decided {p : Params} (h : p ∈ decided) : p.MulRoom := by
  have hwidths : ∀ p ∈ decided, p.db = 58 ∧ p.mdb = 29 ∧ p.numLimbs ≤ 9 ∧ p.hdb ≤ 48 ∧ p.c < 2 ^ 8 := by decide
  obtain ⟨hdb, hmdb, hlimbs, htop, hc⟩ := hwidths p h
  exact ⟨sound_of_decided h, hdb, hmdb, hlimbs, htop, hc⟩

namespace Machine

/-! ### Words of integers -/

section Words

variable {V : Int} {a b : Nat}

theorem toInt_ofInt_emod (hk : a ≤ 64) (V : Int) : (BitVec.ofInt 64 V).toInt % 2 ^ a = V % 2 ^ a := by
  have hdvd : (2 : Int) ^ a ∣ 2 ^ 64 := pow_dvd_pow 2 hk
  have hcast : ((2 ^ 64 : Nat) : Int) = 2 ^ 64 := by norm_cast
  rw [BitVec.toInt_ofInt, ← Int.emod_emod_of_dvd _ hdvd, ← hcast, Int.bmod_emod, hcast, Int.emod_emod_of_dvd _ hdvd]

/-- Masking an integer's word to a bits reduces the integer mod 2^a. -/
theorem ofInt_and_maskWord (hk : a < 63) (V : Int) : BitVec.ofInt 64 V &&& maskWord a = BitVec.ofInt 64 (V % 2 ^ a) := by
  rw [← toInt_ofInt_emod (by omega), ← toInt_and_maskWord hk, BitVec.ofInt_toInt]

theorem ofInt_sshiftRight (h : |V| < 2 ^ 63) (a : Nat) :
    (BitVec.ofInt 64 V).sshiftRight a = BitVec.ofInt 64 (V / 2 ^ a) := by
  obtain ⟨h0, h1⟩ := abs_lt.mp h
  rw [← BitVec.ofInt_toInt (x := (BitVec.ofInt 64 V).sshiftRight a), toInt_sshiftRight_eq,
    toInt_ofInt_of_range h0.le h1]

/-- A left shift multiplies by a power of 2, whatever it drops. -/
theorem shiftLeft_eq_ofInt (x : Word) (a : Nat) : x <<< a = BitVec.ofInt 64 (x.toInt * 2 ^ a) := by
  have hpow : BitVec.twoPow 64 a = BitVec.ofInt 64 (2 ^ a) := by
    rw [show (2 : Int) ^ a = ((2 ^ a : Nat) : Int) by norm_cast, BitVec.ofInt_natCast]
    exact BitVec.eq_of_toNat_eq (by rw [BitVec.toNat_twoPow, BitVec.toNat_ofNat])
  rw [BitVec.ofInt_mul, BitVec.ofInt_toInt, ← hpow, BitVec.shiftLeft_eq_mul_twoPow]

theorem ofInt_shiftLeft (V : Int) (a : Nat) : BitVec.ofInt 64 V <<< a = BitVec.ofInt 64 (V * 2 ^ a) := by
  rw [shiftLeft_eq_ofInt, BitVec.ofInt_mul, BitVec.ofInt_toInt, ← BitVec.ofInt_mul]

/-- The bits from a to a + b of an integer. -/
theorem emod_two_pow_add_ediv (V : Int) (a b : Nat) : V % 2 ^ (a + b) / 2 ^ a = V / 2 ^ a % 2 ^ b := by
  have hpos : (0 : Int) < 2 ^ a := by positivity
  rw [Int.emod_def, Int.emod_def, pow_add, Int.mul_assoc, Int.sub_mul_ediv_left _ _ hpos.ne',
    Int.ediv_ediv_of_nonneg hpos.le]

/-- An integer cut at bit b, its low part shifted right by a ≤ b and its high part left by the rest. -/
theorem ediv_add_mul_ediv (hab : a ≤ b) (V : Int) :
    V % 2 ^ b / 2 ^ a + V / 2 ^ b * 2 ^ (b - a) = V / 2 ^ a := by
  have hpos : (0 : Int) < 2 ^ a := by positivity
  have hcut := Int.emod_add_mul_ediv (V / 2 ^ a) (2 ^ (b - a))
  rw [Int.ediv_ediv_of_nonneg hpos.le, ← pow_add, Nat.add_sub_cancel' hab] at hcut
  rw [← hcut, Int.mul_comm (V / 2 ^ b), ← emod_two_pow_add_ediv, Nat.add_sub_cancel' hab]

end Words

/-! ### Chained vectors, cut at a limb and at bit n -/

section Cuts

variable {p : Params}

/-- The low limbs of a chained vector (R143). -/
theorem take_chainK (p : Params) : ∀ (k j : Nat) (V : Int),
    (chainK p (k + j + 2) V).take (k + 1) = chainK p (k + 1) (V % 2 ^ (p.db * (k + 1)))
  | 0, j, V => by
    rw [Nat.zero_add, chainK_cons, List.take_succ_cons, List.take_zero, chainK, Nat.mul_one]
  | k + 1, j, V => by
    have hlow : V % 2 ^ (p.db * (k + 2)) % 2 ^ p.db = V % 2 ^ p.db :=
      Int.emod_emod_of_dvd _ (pow_dvd_pow 2 (Nat.le_mul_of_pos_right _ (by omega)))
    have hrest : V % 2 ^ (p.db * (k + 2)) / 2 ^ p.db = V / 2 ^ p.db % 2 ^ (p.db * (k + 1)) := by
      rw [← emod_two_pow_add_ediv, Nat.mul_succ, Nat.add_comm p.db]
    rw [show k + 1 + j + 2 = (k + j + 1) + 2 by omega, chainK_cons, List.take_succ_cons, take_chainK p k j, chainK_cons,
      hlow, hrest]

/-- The high limbs of a chained vector (R143). -/
theorem drop_chainK (p : Params) : ∀ (k j : Nat) (V : Int),
    (chainK p (k + j + 1) V).drop k = chainK p (j + 1) (V / 2 ^ (p.db * k))
  | 0, j, V => by rw [Nat.zero_add, List.drop_zero, Nat.mul_zero, pow_zero, Int.ediv_one]
  | k + 1, j, V => by
    rw [show k + 1 + j + 1 = (k + j) + 2 by omega, chainK_cons, List.drop_succ_cons, drop_chainK p k j,
      Int.ediv_ediv_of_nonneg (by positivity), ← pow_add, Nat.mul_succ, Nat.add_comm p.db]

theorem maskTop_cons {l : Word} {L : Element} (h : L ≠ []) : maskTop p (l :: L) = l :: maskTop p L := by
  obtain ⟨u, ls, rfl⟩ := List.exists_cons_of_ne_nil h
  simp [maskTop, topLimb]

theorem chainK_succ_ne_nil (k : Nat) (V : Int) : chainK p (k + 1) V ≠ [] :=
  List.ne_nil_of_length_pos (by rw [length_chainK]; omega)

/-- Masking the top limb of a chained vector, of any value, reduces the value (R142, R215). -/
theorem maskTop_chainK (hhdb : p.hdb < 63) (hle : p.hdb ≤ p.db) : ∀ (k : Nat) (V : Int),
    maskTop p (chainK p (k + 1) V) = chainK p (k + 1) (V % 2 ^ (p.hdb + p.db * k))
  | 0, V => by
    rw [Nat.mul_zero, Nat.add_zero]
    exact congrArg (fun l => [l]) (ofInt_and_maskWord hhdb V)
  | k + 1, V => by
    have hexp : p.hdb + p.db * (k + 1) = p.db + (p.hdb + p.db * k) := by rw [Nat.mul_succ]; omega
    have hlow : V % 2 ^ (p.db + (p.hdb + p.db * k)) % 2 ^ p.db = V % 2 ^ p.db :=
      Int.emod_emod_of_dvd _ (pow_dvd_pow 2 (Nat.le_add_right ..))
    rw [chainK_cons, maskTop_cons (chainK_succ_ne_nil _ _), maskTop_chainK hhdb hle, chainK_cons, hexp, hlow,
      emod_two_pow_add_ediv]

theorem abs_emod_db_lt (hdb : p.db ≤ 61) (V : Int) : |V % 2 ^ p.db| < 2 ^ 63 := by
  have hpos : (0 : Int) < 2 ^ p.db := by positivity
  have hle : (2 : Int) ^ p.db ≤ 2 ^ 61 := pow_le_pow_right₀ (by norm_num) hdb
  rw [abs_of_nonneg (Int.emod_nonneg _ hpos.ne')]
  linarith [Int.emod_lt_of_pos V hpos]

/-- The limb of the high half below its top one: the bits of V from HDB to HDB + DB (R215). -/
theorem highLimb_eq (hhdb : p.hdb ≤ p.db) (hdb : p.db ≤ 61) (V : Int) :
    (BitVec.ofInt 64 (V % 2 ^ p.db)).sshiftRight p.hdb +
        ((BitVec.ofInt 64 (V / 2 ^ p.db % 2 ^ p.db) &&& maskWord p.hdb) <<< (p.db - p.hdb)) =
      BitVec.ofInt 64 (V / 2 ^ p.hdb % 2 ^ p.db) := by
  have hcut := ediv_add_mul_ediv hhdb (V % 2 ^ (p.db + p.hdb))
  have hlow : V % 2 ^ (p.db + p.hdb) % 2 ^ p.db = V % 2 ^ p.db :=
    Int.emod_emod_of_dvd _ (pow_dvd_pow 2 (Nat.le_add_right ..))
  have hbits : V / 2 ^ p.db % 2 ^ p.db % 2 ^ p.hdb = V / 2 ^ p.db % 2 ^ p.hdb :=
    Int.emod_emod_of_dvd _ (pow_dvd_pow 2 hhdb)
  rw [hlow, emod_two_pow_add_ediv, Nat.add_comm, emod_two_pow_add_ediv] at hcut
  rw [ofInt_sshiftRight (abs_emod_db_lt hdb V), ofInt_and_maskWord (by omega), hbits, ofInt_shiftLeft,
    ← BitVec.ofInt_add, hcut]

/-- A limb and the unmasked one above it, from bit HDB on (R215, R222). -/
theorem topPair_eq (hhdb : p.hdb ≤ p.db) (hdb : p.db ≤ 61) (V : Int) :
    (BitVec.ofInt 64 (V % 2 ^ p.db)).sshiftRight p.hdb + (BitVec.ofInt 64 (V / 2 ^ p.db) <<< (p.db - p.hdb)) =
      BitVec.ofInt 64 (V / 2 ^ p.hdb) := by
  rw [ofInt_sshiftRight (abs_emod_db_lt hdb V), ofInt_shiftLeft, ← BitVec.ofInt_add, ediv_add_mul_ediv hhdb]

theorem highLimbs_cons {x y : Word} {L : Element} (h : L ≠ []) : highLimbs p (x :: y :: L) =
    (x.sshiftRight p.hdb + ((y &&& maskWord p.hdb) <<< (p.db - p.hdb))) :: highLimbs p (y :: L) := by
  obtain ⟨z, ls, rfl⟩ := List.exists_cons_of_ne_nil h
  rw [highLimbs]

/-- Shifting a chained vector right by HDB bits (R215). -/
theorem highLimbs_chainK (hhdb : p.hdb ≤ p.db) (hdb : p.db ≤ 61) : ∀ (k : Nat) (V : Int),
    highLimbs p (chainK p (k + 2) V) = chainK p (k + 1) (V / 2 ^ p.hdb)
  | 0, V => by
    rw [chainK_cons, chainK, chainK, highLimbs, topPair_eq hhdb hdb]
  | k + 1, V => by
    have hswap : V / 2 ^ p.db / 2 ^ p.hdb = V / 2 ^ p.hdb / 2 ^ p.db := by
      rw [Int.ediv_ediv_of_nonneg (by positivity), Int.ediv_ediv_of_nonneg (by positivity), Int.mul_comm]
    rw [chainK_cons p (k + 1), chainK_cons p k (V / 2 ^ p.db), highLimbs_cons (chainK_succ_ne_nil _ _), ← chainK_cons,
      highLimbs_chainK hhdb hdb k, highLimb_eq hhdb hdb, hswap, chainK_cons]

variable (hp : p.Sound)
include hp

/-- Bit n as a bit of the top limb (R7). -/
theorem exists_top : ∃ k, p.numLimbs = k + 1 ∧ p.n = p.hdb + p.db * k := by
  have hD := hp.two_limbs
  exact ⟨p.numLimbs - 1, by omega, hp.n_eq⟩

/-- Masking the top limb of a chained vector reduces its value mod 2^n, whatever the value (R142). -/
theorem maskTop_chain_emod (V : Int) : maskTop p (chain p V) = chain p (V % 2 ^ p.n) := by
  obtain ⟨k, hk, hn⟩ := exists_top hp
  have hhdb := hp.hdb_le
  have hdb := hp.db_le
  rw [chain, chain, hk, hn, maskTop_chainK (by omega) hhdb]

/-- The low half of a longer chained vector (R215, R222). -/
theorem splitLow_chainK (j : Nat) (V : Int) :
    splitLow p (chainK p (p.numLimbs + j + 1) V) = chain p (V % 2 ^ p.n) := by
  obtain ⟨k, hk, hn⟩ := exists_top hp
  have hdvd : (2 : Int) ^ p.n ∣ 2 ^ (p.db * (k + 1)) := by
    have := hp.hdb_le
    exact pow_dvd_pow 2 (by rw [hn, Nat.mul_succ]; omega)
  rw [splitLow, hk, show k + 1 + j + 1 = k + j + 2 by omega, take_chainK, ← hk, ← chain, maskTop_chain_emod hp, hk,
    Int.emod_emod_of_dvd _ hdvd]

/-- The high half of a product (R215). -/
theorem splitHigh_chainK (V : Int) : splitHigh p (chainK p (2 * p.numLimbs) V) = chain p (V / 2 ^ p.n) := by
  obtain ⟨k, hk, hn⟩ := exists_top hp
  rw [splitHigh, chain, hk, Nat.add_sub_cancel, show 2 * (k + 1) = k + (k + 1) + 1 by omega, drop_chainK,
    highLimbs_chainK hp.hdb_le hp.db_le, Int.ediv_ediv_of_nonneg (by positivity), ← pow_add, hn, Nat.add_comm p.hdb]

/-- The residual of the low half and the bits of the top limb, as one word: the quotient by 2^n (R222). -/
theorem resWord_take_add_topLimb (V : Int) :
    resWord p ((chainK p (p.numLimbs + 1) V).take p.numLimbs) +
        (topLimb (chainK p (p.numLimbs + 1) V) <<< (p.db - p.hdb)) = BitVec.ofInt 64 (V / 2 ^ p.n) := by
  obtain ⟨k, hk, hn⟩ := exists_top hp
  have hpos : (0 : Int) ≤ 2 ^ (p.db * k) := by positivity
  have hpair := topPair_eq hp.hdb_le hp.db_le (V / 2 ^ (p.db * k))
  rw [← emod_two_pow_add_ediv, Int.ediv_ediv_of_nonneg hpos, Int.ediv_ediv_of_nonneg hpos, ← pow_add, ← pow_add,
    ← Nat.mul_succ, Nat.add_comm _ p.hdb, ← hn] at hpair
  rw [hk, resWord, take_chainK p k 0, topLimb_chainK, topLimb_chainK, hpair]

end Cuts

/-! ### Half-limbs, columns and pairs -/

/-- The parameter set with half-limbs for limbs, in which `val` reads half-limb vectors and columns (R211, R212). -/
def halved (p : Params) : Params := { p with db := p.mdb }

@[simp] theorem halved_db (p : Params) : (halved p).db = p.mdb := rfl

/-- Words of magnitude at most `B`. -/
def Bounded (B : Int) (L : List Word) : Prop := ∀ x ∈ L, |x.toInt| ≤ B

theorem bounded_cons {B : Int} {x : Word} {L : List Word} : Bounded B (x :: L) ↔ |x.toInt| ≤ B ∧ Bounded B L :=
  List.forall_mem_cons

theorem bounded_nil (B : Int) : Bounded B [] := fun _ h => absurd h List.not_mem_nil

theorem Bounded.mono {A B : Int} {L : List Word} (h : Bounded A L) (hAB : A ≤ B) : Bounded B L :=
  fun x hx => (h x hx).trans hAB

theorem toInt_add_of_abs {x y : Word} (h : |x.toInt| + |y.toInt| < 2 ^ 63) : (x + y).toInt = x.toInt + y.toInt := by
  obtain ⟨h0, h1⟩ := abs_lt.mp ((abs_add_le ..).trans_lt h)
  exact toInt_add_of_range h0.le h1

theorem toInt_mul_of_abs {x y : Word} (h : |x.toInt| * |y.toInt| < 2 ^ 63) : (x * y).toInt = x.toInt * y.toInt := by
  obtain ⟨h0, h1⟩ := abs_lt.mp (abs_mul x.toInt y.toInt ▸ h)
  exact toInt_mul_of_range h0.le h1

section Vectors

variable {q : Params} {A B : Int}

/-- A vector times a word, where no product wraps. -/
theorem val_map_mul {a : Word} (ha : |a.toInt| ≤ A) (hAB : A * B < 2 ^ 63) :
    ∀ {bs : List Word}, Bounded B bs → Bounded (A * B) (bs.map (a * ·)) ∧ val q (bs.map (a * ·)) = a.toInt * val q bs
  | [], _ => ⟨bounded_nil _, by simp [val]⟩
  | b :: bs, h => by
    obtain ⟨hb, hbs⟩ := bounded_cons.mp h
    obtain ⟨hrest, hval⟩ := val_map_mul ha hAB hbs
    have hprod : |a.toInt| * |b.toInt| ≤ A * B := mul_le_mul ha hb (abs_nonneg _) ((abs_nonneg _).trans ha)
    have hmul : (a * b).toInt = a.toInt * b.toInt := toInt_mul_of_abs (hprod.trans_lt hAB)
    refine ⟨bounded_cons.mpr ⟨by rwa [hmul, abs_mul], hrest⟩, ?_⟩
    rw [List.map_cons, val, val, hval, hmul]
    ring

/-- A sum of vectors, where no sum wraps. -/
theorem val_addVectors (hA : 0 ≤ A) (hB : 0 ≤ B) (hAB : A + B < 2 ^ 63) : ∀ {as bs : List Word}, Bounded A as →
    Bounded B bs → Bounded (A + B) (addVectors as bs) ∧ val q (addVectors as bs) = val q as + val q bs
  | a :: as, b :: bs, has, hbs => by
    obtain ⟨ha, has⟩ := bounded_cons.mp has
    obtain ⟨hb, hbs⟩ := bounded_cons.mp hbs
    obtain ⟨hrest, hval⟩ := val_addVectors hA hB hAB has hbs
    have hsum : |a.toInt| + |b.toInt| ≤ A + B := add_le_add ha hb
    have hadd : (a + b).toInt = a.toInt + b.toInt := toInt_add_of_abs (hsum.trans_lt hAB)
    refine ⟨bounded_cons.mpr ⟨hadd ▸ (abs_add_le ..).trans hsum, hrest⟩, ?_⟩
    rw [addVectors, val, val, val, hval, hadd]
    ring
  | [], bs, _, hbs => ⟨by rw [addVectors]; exact hbs.mono (by omega), by simp [addVectors, val]⟩
  | a :: as, [], has, _ => ⟨by rw [addVectors]; exact has.mono (by omega); simp, by simp [addVectors, val]⟩

/-- The columns hold the product, and none wraps where the vectors are of 30-bit words and the first of at most 18 (R212). -/
theorem val_columns {bs : List Word} (hbs : Bounded (2 ^ 29) bs) : ∀ {as : List Word}, Bounded (2 ^ 29) as →
    as.length ≤ 18 → Bounded (as.length * 2 ^ 58) (columns as bs) ∧ val q (columns as bs) = val q as * val q bs
  | [], _, _ => ⟨bounded_nil _, by simp [columns, val]⟩
  | a :: as, has, hlen => by
    obtain ⟨ha, has⟩ := bounded_cons.mp has
    rw [List.length_cons] at hlen
    obtain ⟨hrest, hval⟩ := val_columns hbs has (by omega)
    obtain ⟨hrow, hrowVal⟩ := val_map_mul (q := q) ha (by norm_num) hbs
    have hshifted : Bounded (as.length * 2 ^ 58) (0#64 :: columns as bs) :=
      bounded_cons.mpr ⟨by rw [BitVec.toInt_zero, abs_zero]; positivity, hrest⟩
    obtain ⟨hsum, hsumVal⟩ := val_addVectors (q := q) (by norm_num) (by positivity) (by omega) hrow hshifted
    refine ⟨hsum.mono (by rw [List.length_cons]; push_cast; omega), ?_⟩
    rw [columns, hsumVal, hrowVal, val, val, hval, BitVec.toInt_zero]
    ring

end Vectors

theorem length_addVectors : ∀ as bs : List Word, (addVectors as bs).length = max as.length bs.length
  | a :: as, b :: bs => by rw [addVectors, List.length_cons, length_addVectors as bs]; simp
  | [], bs => by simp [addVectors]
  | a :: as, [] => by simp [addVectors]

theorem length_columns {bs : List Word} (h : bs ≠ []) : ∀ (a : Word) (as : List Word),
    (columns (a :: as) bs).length = as.length + bs.length
  | a, [] => by
    have := List.length_pos_iff.mpr h
    simp [columns, length_addVectors]
    omega
  | a, a' :: as => by
    rw [columns, length_addVectors, List.length_map, List.length_cons, length_columns h a' as, List.length_cons]
    omega

section Halves

variable {p : Params} (hq : p.MulRoom)

@[simp] theorem length_halfLimbs (p : Params) : ∀ L : Element, (halfLimbs p L).length = 2 * L.length
  | [] => rfl
  | l :: ls => by rw [halfLimbs, List.length_cons, List.length_cons, length_halfLimbs p ls, List.length_cons]; rfl

include hq

theorem val_halfLimbs : ∀ L : Element, val (halved p) (halfLimbs p L) = val p L
  | [] => rfl
  | l :: ls => by
    have hcut := Int.emod_add_mul_ediv l.toInt (2 ^ 29)
    rw [halfLimbs, val, val, val, val_halfLimbs ls, halved_db, hq.mdb_eq, hq.db_eq, toInt_and_maskWord (by decide),
      toInt_sshiftRight_eq]
    linear_combination hcut

theorem bounded_halfLimbs : ∀ {L : Element}, Bounded (2 ^ 58) L → Bounded (2 ^ 29) (halfLimbs p L)
  | [], _ => bounded_nil _
  | l :: ls, h => by
    obtain ⟨hl, hls⟩ := bounded_cons.mp h
    have hlow : |l.toInt % 2 ^ 29| ≤ 2 ^ 29 := by rw [abs_of_nonneg] <;> omega
    have hhigh : |l.toInt / 2 ^ 29| ≤ 2 ^ 29 := abs_ediv_two_pow_le (hl.trans (by norm_num))
    rw [halfLimbs, hq.mdb_eq]
    exact bounded_cons.mpr ⟨by rwa [toInt_and_maskWord (by decide)],
      bounded_cons.mpr ⟨by rwa [toInt_sshiftRight_eq], bounded_halfLimbs hls⟩⟩

theorem bounded_of_all_low {L : Element} (h : L.all (lowLimbOk p) = true) : Bounded (2 ^ 58) L := fun l hl => by
  obtain ⟨h0, h1⟩ := lowLimbOk_iff.mp (List.all_eq_true.mp h l hl)
  rw [hq.db_eq] at h1
  exact abs_le.mpr (by omega)

theorem bounded_of_wf {L : Element} (h : wf p L = true) : Bounded (2 ^ 58) L := by
  have hle : (2 : Int) ^ (p.hdb + 2) ≤ 2 ^ 58 := pow_le_pow_right₀ (by norm_num) (by have := hq.top_le; omega)
  obtain ⟨t0, t1⟩ := topLimb_range_of_wf h
  rw [← dropLast_append_topLimb (ne_nil_of_length hq.toSound (length_of_wf h))]
  intro l hl
  rcases List.mem_append.mp hl with hlow | htop
  · exact bounded_of_all_low hq (dropLast_low_of_wf h) l hlow
  · obtain rfl := List.mem_singleton.mp htop
    exact abs_le.mpr (by omega)

/-- A paired limb does not wrap, and leaves the carry chain its room (R213, R216). -/
theorem toInt_pairedLimb {B : Int} (hB : B ≤ 2 ^ 62 + 2 ^ 61) {c0 c1 prev : Word} (h0 : |c0.toInt| ≤ B)
    (hprev : |prev.toInt| ≤ B) :
    (c0 + ((c1 &&& maskWord p.mdb) <<< p.mdb) + prev.sshiftRight p.mdb).toInt =
        c0.toInt + c1.toInt % 2 ^ 29 * 2 ^ 29 + prev.toInt / 2 ^ 29 ∧
      |c0.toInt + c1.toInt % 2 ^ 29 * 2 ^ 29 + prev.toInt / 2 ^ 29| ≤ 2 ^ 63 - 64 := by
  obtain ⟨l0, u0⟩ := abs_le.mp h0
  obtain ⟨lp, up⟩ := abs_le.mp hprev
  have hcol : ((c1 &&& maskWord p.mdb) <<< p.mdb).toInt = c1.toInt % 2 ^ 29 * 2 ^ 29 := by
    rw [shiftLeft_eq_ofInt, hq.mdb_eq, toInt_and_maskWord (by decide)]
    exact toInt_ofInt_of_range (by omega) (by omega)
  have hshift : (prev.sshiftRight p.mdb).toInt = prev.toInt / 2 ^ 29 := by rw [toInt_sshiftRight_eq, hq.mdb_eq]
  have hfirst : (c0 + ((c1 &&& maskWord p.mdb) <<< p.mdb)).toInt = c0.toInt + c1.toInt % 2 ^ 29 * 2 ^ 29 := by
    rw [toInt_add_of_range] <;> rw [hcol] <;> omega
  refine ⟨?_, abs_le.mpr (by omega)⟩
  rw [toInt_add_of_range] <;> rw [hfirst, hshift] <;> omega

/-- An odd number of columns pairs into the limbs of their value (R213). -/
theorem val_pairColumns {B : Int} (hB : B ≤ 2 ^ 62 + 2 ^ 61) : ∀ {k : Nat} {prev : Word} {cs : List Word},
    |prev.toInt| ≤ B → Bounded B cs → cs.length = 2 * k + 1 →
      (pairColumns p prev cs).length = k + 1 ∧ Bounded (2 ^ 63 - 64) (pairColumns p prev cs) ∧
        val p (pairColumns p prev cs) = val (halved p) cs + prev.toInt / 2 ^ 29
  | k, prev, [c0], hprev, hcs, hlen => by
    obtain ⟨hsum, hbound⟩ := toInt_pairedLimb hq hB (c1 := 0#64) (hcs c0 List.mem_cons_self) hprev
    rw [BitVec.zero_and, BitVec.zero_shiftLeft, BitVec.add_zero, BitVec.toInt_zero] at hsum
    rw [BitVec.toInt_zero] at hbound
    refine ⟨?_, bounded_cons.mpr ⟨hsum ▸ hbound, bounded_nil _⟩, ?_⟩
    · rw [List.length_singleton] at hlen
      simp only [pairColumns, List.length_singleton]
      omega
    · rw [pairColumns, val, val, val, val, hsum]
      ring
  | k, prev, c0 :: c1 :: cs, hprev, hcs, hlen => by
    obtain ⟨h0, hcs⟩ := bounded_cons.mp hcs
    obtain ⟨h1, hcs⟩ := bounded_cons.mp hcs
    obtain ⟨hsum, hbound⟩ := toInt_pairedLimb hq hB (c1 := c1) h0 hprev
    rw [List.length_cons, List.length_cons] at hlen
    obtain ⟨hlenRest, hrest, hval⟩ := val_pairColumns hB (k := k - 1) h1 hcs (by omega)
    refine ⟨?_, bounded_cons.mpr ⟨hsum ▸ hbound, hrest⟩, ?_⟩
    · rw [pairColumns, List.length_cons, hlenRest]
      omega
    · have hcut := Int.emod_add_mul_ediv c1.toInt (2 ^ 29)
      rw [pairColumns, val, val, val, hval, hsum, halved_db, hq.mdb_eq, hq.db_eq]
      linear_combination (2 : Int) ^ 29 * hcut
  | _, _, [], _, _, hlen => by simp at hlen

/-- Paired columns after their carry chain (R213, R214). -/
theorem carryChain_pairColumns {k : Nat} {cs : List Word} (hcs : Bounded (2 ^ 62 + 2 ^ 61) cs)
    (hlen : cs.length = 2 * k + 1) : carryChain p (pairColumns p 0#64 cs) = chainK p (k + 1) (val (halved p) cs) := by
  have hdb := hq.db_eq
  obtain ⟨hlimbs, hbound, hval⟩ := val_pairColumns hq le_rfl (prev := 0#64) (by decide) hcs hlen
  have hne : pairColumns p 0#64 cs ≠ [] := List.ne_nil_of_length_pos (by omega)
  rw [carryChain_eq_chainK (by omega) (by omega) hne fun l hl => abs_le.mp (hbound l hl), hlimbs, hval,
    BitVec.toInt_zero, Int.zero_ediv, Int.add_zero]

/-- The product of two vectors, over 2·D limbs (R211 to R214). -/
theorem productPath_eq {a b : Element} (ha : wf p a = true) (hb : wf p b = true) :
    productPath p a b = chainK p (2 * p.numLimbs) (val p a * val p b) := by
  have hD := hq.two_limbs
  have hlimbs := hq.limbs_le
  have hlenA : (halfLimbs p a).length = 2 * p.numLimbs := by rw [length_halfLimbs, length_of_wf ha]
  have hlenB : (halfLimbs p b).length = 2 * p.numLimbs := by rw [length_halfLimbs, length_of_wf hb]
  obtain ⟨hbound, hval⟩ := val_columns (q := halved p) (bounded_halfLimbs hq (bounded_of_wf hq hb))
    (bounded_halfLimbs hq (bounded_of_wf hq ha)) (by omega)
  have hlen : (columns (halfLimbs p a) (halfLimbs p b)).length = 2 * (2 * p.numLimbs - 1) + 1 := by
    obtain ⟨x, xs, hxs⟩ := List.exists_cons_of_length_pos (l := halfLimbs p a) (by omega)
    rw [hxs, List.length_cons] at hlenA
    rw [hxs, length_columns (List.ne_nil_of_length_pos (by omega))]
    omega
  rw [productPath, carryChain_pairColumns hq (hbound.mono (by omega)) hlen, hval, val_halfLimbs hq, val_halfLimbs hq]
  congr 1
  omega

end Halves

/-! ### Packing a vector times a word -/

/-- MULS's packing is the pairing of the half-limbs' products, with one column of 0 above them (R216, R222). -/
theorem scalarPack_false_eq (p : Params) (b : Word) : ∀ (L : Element) (prev : Word), L ≠ [] →
    scalarPack p b false prev L = pairColumns p prev ((halfLimbs p L).map (b * ·) ++ [0#64])
  | [], _, h => absurd rfl h
  | [x], prev, _ => by
    simp [scalarPack, halfLimbs, pairColumns, BitVec.mul_comm b, add_right_comm]
  | x :: y :: xs, prev, _ => by
    have hrec := scalarPack_false_eq p b (y :: xs) (x.sshiftRight p.mdb * b) (by simp)
    rw [scalarPack, hrec]
    simp [halfLimbs, pairColumns, BitVec.mul_comm b, add_right_comm]

/-- The two half-limbs of a word, each times b, are b times the word. -/
theorem halves_mul {k : Nat} (hk : k < 63) (x b : Word) :
    (x &&& maskWord k) * b + (x.sshiftRight k * b) <<< k = b * x := by
  have hx : (x &&& maskWord k) + x.sshiftRight k * BitVec.twoPow 64 k = x := by
    rw [← BitVec.shiftLeft_eq_mul_twoPow, shiftLeft_eq_ofInt, toInt_sshiftRight_eq,
      ← BitVec.ofInt_toInt (x := x &&& maskWord k), toInt_and_maskWord hk, ← BitVec.ofInt_add, Int.mul_comm,
      Int.emod_add_mul_ediv, BitVec.ofInt_toInt]
  rw [BitVec.shiftLeft_eq_mul_twoPow]
  calc (x &&& maskWord k) * b + x.sshiftRight k * b * BitVec.twoPow 64 k
      = b * ((x &&& maskWord k) + x.sshiftRight k * BitVec.twoPow 64 k) := by ring
    _ = b * x := by rw [hx]

/-- The packing by c is the pairing of the products of the low limbs' half-limbs and of the whole top limb (R216). -/
theorem scalarPack_true_eq {p : Params} (hmdb : p.mdb < 63) (b : Word) : ∀ (L : Element) (prev : Word), L ≠ [] →
    scalarPack p b true prev L =
      pairColumns p prev ((halfLimbs p L.dropLast).map (b * ·) ++ [b * topLimb L])
  | [], _, h => absurd rfl h
  | [x], prev, _ => by
    have hx := halves_mul hmdb x b
    simp [scalarPack, halfLimbs, pairColumns, topLimb, add_right_comm _ (prev.sshiftRight p.mdb), hx]
  | x :: y :: xs, prev, _ => by
    have hrec := scalarPack_true_eq hmdb b (y :: xs) (x.sshiftRight p.mdb * b) (by simp)
    rw [scalarPack, hrec]
    simp [halfLimbs, pairColumns, topLimb, BitVec.mul_comm b, add_right_comm]

/-- A fold leaves n bits as they are (R145). -/
theorem fold_emod (p : Params) (V : Int) : fold p (V % 2 ^ p.n) = V % 2 ^ p.n := by
  have hpos : (0 : Int) < 2 ^ p.n := by positivity
  rw [fold, Int.emod_emod_of_dvd _ (dvd_refl _), Int.ediv_eq_zero_of_lt (Int.emod_nonneg _ hpos.ne')
    (Int.emod_lt_of_pos _ hpos), Int.mul_zero, Int.add_zero]

section Paths

variable {p : Params} (hq : p.MulRoom)
include hq

theorem toInt_cWord_of_room : (cWord p).toInt = p.c ∧ |(cWord p).toInt| ≤ 2 ^ 8 := by
  have hsmall := hq.c_lt_byte
  have hc : (cWord p).toInt = p.c := toInt_cWord (by omega)
  exact ⟨hc, by rw [hc, Nat.abs_cast]; omega⟩

/-- MULS's product, over D + 1 limbs (R216, R222). -/
theorem carryChain_scalarPack_false {a : Element} {b : Word} (ha : wf p a = true) (hb : |b.toInt| ≤ 2 ^ 32) :
    carryChain p (scalarPack p b false 0#64 a) = chainK p (p.numLimbs + 1) (val p a * b.toInt) := by
  obtain ⟨hbound, hval⟩ := val_map_mul (q := halved p) hb (by norm_num) (bounded_halfLimbs hq (bounded_of_wf hq ha))
  have hcols : Bounded (2 ^ 62 + 2 ^ 61) ((halfLimbs p a).map (b * ·) ++ [0#64]) :=
    List.forall_mem_append.mpr ⟨hbound.mono (by norm_num), bounded_cons.mpr ⟨by decide, bounded_nil _⟩⟩
  rw [scalarPack_false_eq p b a _ (ne_nil_of_length hq.toSound (length_of_wf ha)), carryChain_pairColumns
    (k := p.numLimbs) hq hcols (by simp [length_of_wf ha]), val_append_singleton, hval, val_halfLimbs hq,
    BitVec.toInt_zero, Int.mul_zero, Int.add_zero, Int.mul_comm]

/-- A vector with room in its top limb, times c (R216, R217). -/
theorem carryChain_scalarPack_true {L : Element} (hlen : L.length = p.numLimbs)
    (hlow : L.dropLast.all (lowLimbOk p) = true) (htop : |(topLimb L).toInt| ≤ 2 ^ 52) :
    carryChain p (scalarPack p (cWord p) true 0#64 L) = chain p (p.c * val p L) := by
  have hD := hq.two_limbs
  obtain ⟨hc, hcabs⟩ := toInt_cWord_of_room hq
  have hprod : |(cWord p).toInt| * |(topLimb L).toInt| ≤ 2 ^ 8 * 2 ^ 52 :=
    mul_le_mul hcabs htop (abs_nonneg _) (by norm_num)
  have hmul : (cWord p * topLimb L).toInt = p.c * (topLimb L).toInt := by
    rw [toInt_mul_of_abs (hprod.trans_lt (by norm_num)), hc]
  obtain ⟨hbound, hval⟩ := val_map_mul (q := halved p) hcabs (by norm_num)
    (bounded_halfLimbs hq (bounded_of_all_low hq hlow))
  have hcols : Bounded (2 ^ 62 + 2 ^ 61) ((halfLimbs p L.dropLast).map (cWord p * ·) ++ [cWord p * topLimb L]) := by
    refine List.forall_mem_append.mpr ⟨hbound.mono (by norm_num), bounded_cons.mpr ⟨?_, bounded_nil _⟩⟩
    rw [hmul, ← hc, abs_mul]
    exact hprod.trans (by norm_num)
  have hne := ne_nil_of_length hq.toSound hlen
  have hexp : p.mdb * (2 * L.dropLast.length) = p.db * L.dropLast.length := by rw [hq.mdb_eq, hq.db_eq]; ring
  have hsplit := congrArg (val p) (dropLast_append_topLimb hne)
  rw [val_append_singleton] at hsplit
  rw [scalarPack_true_eq (by rw [hq.mdb_eq]; decide) _ L _ hne, carryChain_pairColumns (k := p.numLimbs - 1) hq hcols
    (by simp [hlen]), val_append_singleton, hval, val_halfLimbs hq, hmul, hc, List.length_map, length_halfLimbs,
    halved_db, hexp, ← hsplit, chain, Nat.sub_add_cancel (by omega)]
  congr 1
  ring

/-! ### The paths -/

/-- The magnitude of a WF value times a bounded factor (R218, R220). -/
theorem abs_val_mul_le {a : Element} (ha : wf p a = true) {W B : Int} (hW : |W| ≤ B) : |val p a * W| ≤ 4 * B * 2 ^ p.n :=
  calc |val p a * W| = |val p a| * |W| := abs_mul ..
    _ ≤ 4 * 2 ^ p.n * B :=
      mul_le_mul (abs_le_of_inWfRange (inWfRange_of_wf hq.toSound ha)) hW (abs_nonneg _) (by positivity)
    _ = 4 * B * 2 ^ p.n := by ring

/-- A quotient of 35 bits times c does not wrap (R217, R222). -/
theorem toInt_mul_cWord {x : Word} (hx : |x.toInt| ≤ 2 ^ 34) :
    (x * cWord p).toInt = x.toInt * p.c ∧ |(x * cWord p).toInt| ≤ 2 ^ 61 := by
  obtain ⟨hc, hcabs⟩ := toInt_cWord_of_room hq
  have hprod : |x.toInt| * |(cWord p).toInt| ≤ 2 ^ 34 * 2 ^ 8 := mul_le_mul hx hcabs (abs_nonneg _) (by norm_num)
  have hmul := toInt_mul_of_abs (hprod.trans_lt (by norm_num))
  exact ⟨hmul.trans (by rw [hc]), by rw [hmul, abs_mul]; exact hprod.trans (by norm_num)⟩

/-- The low n bits of an integer, as a vector that needs no masking. -/
theorem masked_chain_emod (V : Int) :
    Masked p (chain p (V % 2 ^ p.n)) ∧ val p (chain p (V % 2 ^ p.n)) = V % 2 ^ p.n := by
  have hpos : (0 : Int) < 2 ^ p.n := by positivity
  have h0 := Int.emod_nonneg V hpos.ne'
  have h1 := Int.emod_lt_of_pos V hpos
  have hV : InWfRange p (V % 2 ^ p.n) := inWfRange_of_abs_lt (by rw [abs_of_nonneg h0]; omega)
  exact ⟨masked_chain hq.toSound h0 h1, val_chain hq.toSound hV.1 hV.2⟩

/-- The data path of MULS, where SCALAR has at most 33 bits (R222). -/
theorem mulsPath_eq {a : Element} {b : Word} (ha : wf p a = true) (hb : |b.toInt| ≤ 2 ^ 32) :
    mulsPath p a b = chain p (fold p (val p a * b.toInt)) := by
  have hquot : |val p a * b.toInt / 2 ^ p.n| ≤ 2 ^ 34 := abs_ediv_two_pow_le (abs_val_mul_le hq ha hb)
  obtain ⟨q0, q1⟩ := abs_le.mp hquot
  have hk : (BitVec.ofInt 64 (val p a * b.toInt / 2 ^ p.n)).toInt = val p a * b.toInt / 2 ^ p.n :=
    toInt_ofInt_of_range (by omega) (by omega)
  obtain ⟨hkc, hroom⟩ := toInt_mul_cWord hq (hk ▸ hquot)
  obtain ⟨hlow, hval⟩ := masked_chain_emod hq (val p a * b.toInt)
  have hmask := splitLow_chainK hq.toSound 0 (val p a * b.toInt)
  rw [splitLow, Nat.add_zero] at hmask
  rw [mulsPath, carryChain_scalarPack_false hq ha hb, resWord_take_add_topLimb hq.toSound, hmask,
    carryChain_addLimb0 hq.toSound (by have := hq.db_eq; omega) hlow hroom, hval, hkc, hk, fold, Int.mul_comm (p.c : Int)]

/-- The top limb of a chained vector of up to n + 12 bits, where a WF one has n + 2. -/
theorem toInt_topLimb_chain {V K : Int} (hK : 0 ≤ K) (hK' : K ≤ 2 ^ 12) (hV : |V| ≤ K * 2 ^ p.n) :
    (topLimb (chain p V)).toInt = V / 2 ^ (p.db * (p.numLimbs - 1)) ∧ |(topLimb (chain p V)).toInt| ≤ K * 2 ^ 48 := by
  have hD := hq.two_limbs
  have hquot : |V / 2 ^ (p.db * (p.numLimbs - 1))| ≤ K * 2 ^ 48 := abs_ediv_two_pow_le <|
    calc |V| ≤ K * (2 ^ p.hdb * 2 ^ (p.db * (p.numLimbs - 1))) := by rwa [← pow_add, ← hq.n_eq]
      _ ≤ K * (2 ^ 48 * 2 ^ (p.db * (p.numLimbs - 1))) := by
        gcongr
        · norm_num
        · exact hq.top_le
      _ = K * 2 ^ 48 * 2 ^ (p.db * (p.numLimbs - 1)) := by ring
  obtain ⟨q0, q1⟩ := abs_le.mp hquot
  have htop : (topLimb (chain p V)).toInt = V / 2 ^ (p.db * (p.numLimbs - 1)) := by
    have h := topLimb_chainK p (p.numLimbs - 1) V
    rw [Nat.sub_add_cancel (by omega), ← chain] at h
    rw [h, toInt_ofInt_of_range] <;> omega
  exact ⟨htop, htop ▸ hquot⟩

theorem val_chain_of_abs_le {V : Int} (hV : |V| ≤ 2 ^ 12 * 2 ^ p.n) : val p (chain p V) = V := by
  have hD := hq.two_limbs
  obtain ⟨htop, habs⟩ := toInt_topLimb_chain hq (by norm_num) le_rfl hV
  obtain ⟨q0, q1⟩ := abs_le.mp (htop ▸ habs)
  have h := val_chainK p hq.db_le (p.numLimbs - 1) V (by omega) (by omega)
  rwa [Nat.sub_add_cancel (by omega)] at h

/-- The residual of such a vector (R141). -/
theorem toInt_resWord_chain {V : Int} (hV : |V| ≤ 2 ^ 12 * 2 ^ p.n) : (resWord p (chain p V)).toInt = V / 2 ^ p.n := by
  obtain ⟨htop, -⟩ := toInt_topLimb_chain hq (by norm_num) le_rfl hV
  rw [toInt_resWord, res, htop, Int.ediv_ediv_of_nonneg (by positivity), ← pow_add, Nat.add_comm, ← hq.n_eq]

/-- The final add of two such vectors (R217). -/
theorem addsubPath_chain {x y : Int} (hx : |x| ≤ 2 ^ 12 * 2 ^ p.n) (hy : |y| ≤ 2 ^ 12 * 2 ^ p.n) :
    addsubPath p (chain p x) (chain p y) false = chain p (fold p x + fold p y) := by
  have hp := hq.toSound
  have habs : |(resWord p (chain p x)).toInt| + |(resWord p (chain p y)).toInt| ≤ 2 ^ 12 + 2 ^ 12 := by
    rw [toInt_resWord_chain hq hx, toInt_resWord_chain hq hy]
    exact add_le_add (abs_ediv_two_pow_le hx) (abs_ediv_two_pow_le hy)
  have hk : (resWord p (chain p x) + resWord p (chain p y)).toInt = x / 2 ^ p.n + y / 2 ^ p.n := by
    rw [toInt_add_of_abs (habs.trans_lt (by norm_num)), toInt_resWord_chain hq hx, toInt_resWord_chain hq hy]
  obtain ⟨hkc, hroom⟩ := toInt_mul_cWord hq (x := resWord p (chain p x) + resWord p (chain p y)) (by
    rw [toInt_add_of_abs (habs.trans_lt (by norm_num))]
    exact (abs_add_le ..).trans (habs.trans (by norm_num)))
  obtain ⟨hlowX, hvalX⟩ := masked_chain_emod hq x
  obtain ⟨hlowY, hvalY⟩ := masked_chain_emod hq y
  have hadd := carryChain_addLimb0_combine (neg := false) hp (by have := hq.db_eq; omega) hlowX hlowY hroom
  rw [hkc, hk, hvalX, hvalY, sigma_false] at hadd
  rw [addsubPath, maskTop_chain_emod hp, maskTop_chain_emod hp]
  refine hadd.trans (congrArg (chain p) ?_)
  rw [fold, fold]
  ring

/-- The reduction of the high half by c (R215, R216). -/
theorem carryChain_scalarPack_chain {H : Int} (hH : |H| ≤ 2 ^ 4 * 2 ^ p.n) :
    carryChain p (scalarPack p (cWord p) true 0#64 (chain p H)) = chain p (p.c * H) := by
  have hD := hq.two_limbs
  have hval := val_chain_of_abs_le hq (hH.trans (by gcongr <;> norm_num))
  obtain ⟨-, htop⟩ := toInt_topLimb_chain hq (by norm_num) (by norm_num) hH
  have hlow := dropLast_chainK p hq.db_le (p.numLimbs - 1) H
  rw [Nat.sub_add_cancel (by omega)] at hlow
  rw [carryChain_scalarPack_true hq (length_chain p H) hlow (htop.trans (by norm_num)), hval]

/-- The data path of MUL and SQR (R210 to R217). -/
theorem mulPath_eq {a b : Element} (ha : wf p a = true) (hb : wf p b = true) :
    mulPath p a b = chain p (reduceProduct p (val p a * val p b)) := by
  have hD := hq.two_limbs
  have hpos : (0 : Int) < 2 ^ p.n := by positivity
  have hhigh : |val p a * val p b / 2 ^ p.n| ≤ 2 ^ 4 * 2 ^ p.n :=
    (abs_ediv_two_pow_le (abs_val_mul_le hq ha (abs_le_of_inWfRange (inWfRange_of_wf hq.toSound hb)))).trans_eq
      (by ring)
  have hscaled : |(p.c : Int) * (val p a * val p b / 2 ^ p.n)| ≤ 2 ^ 12 * 2 ^ p.n :=
    calc |(p.c : Int) * (val p a * val p b / 2 ^ p.n)| = p.c * |val p a * val p b / 2 ^ p.n| := by
          rw [abs_mul, Nat.abs_cast]
      _ ≤ 2 ^ 8 * (2 ^ 4 * 2 ^ p.n) :=
        mul_le_mul (by exact_mod_cast hq.c_lt_byte.le) hhigh (abs_nonneg _) (by norm_num)
      _ = 2 ^ 12 * 2 ^ p.n := by ring
  have hlow : |val p a * val p b % 2 ^ p.n| ≤ 2 ^ 12 * 2 ^ p.n := by
    rw [abs_of_nonneg (Int.emod_nonneg _ hpos.ne')]
    linarith [Int.emod_lt_of_pos (val p a * val p b) hpos]
  have hsplit := splitLow_chainK hq.toSound (p.numLimbs - 1) (val p a * val p b)
  rw [show p.numLimbs + (p.numLimbs - 1) + 1 = 2 * p.numLimbs by omega] at hsplit
  rw [mulPath, productPath_eq hq ha hb, hsplit, splitHigh_chainK hq.toSound, carryChain_scalarPack_chain hq hhigh,
    addsubPath_chain hq hlow hscaled, fold_emod, reduceProduct]

end Paths

end Machine

/-- Settles O58: no column or packed limb wraps, and the final add is of the low half and the high half's fold. -/
theorem mulPathIsTheClosedForm : Obligations.MulPathIsTheClosedForm := by
  intro p a b hdec ha hb
  exact mulPath_eq (Params.mulRoom_of_decided hdec) ha hb

/-- Settles O59: the product times SCALAR, folded once, where SCALAR in its range has at most 33 bits. -/
theorem mulsPathIsTheClosedForm : Obligations.MulsPathIsTheClosedForm := by
  intro p a v hdec ha hlo hhi
  have hv := abs_toInt_le_of_inMulRange (Params.decided_mdb_le p hdec) (inMulRange_iff.mpr ⟨hlo, hhi⟩)
  exact mulsPath_eq (Params.mulRoom_of_decided hdec) ha hv

end Sys2Proof
end

section
/-! PROOFS, the residues of the power ladders (43_power_ladders.md R243 to R251): the inverse, the two square-root formulas and
the Legendre symbol, as elements of `ZMod p`. -/

namespace Sys2Proof

open Sys2Proof.Machine Sys2Proof.Safety

/-- The parameter sets whose ladders compute in a field of one of the two classes of R8(d); the decided sets are such. -/
structure Params.LadderField (p : Params) : Prop extends p.Sound where
  prime : p.prime.Prime
  classes : p.prime % 4 = 3 ∨ p.prime % 8 = 5

theorem Params.ladderField_of_decided {p : Params} (h : p ∈ decided) : p.LadderField :=
  ⟨sound_of_decided h, Primality.decided_prime p h, by simpa [checkClass] using decided_checkClass p h⟩

theorem Params.LadderField.two_lt {p : Params} (hp : p.LadderField) : 2 < p.prime := by
  have := hp.classes
  omega

namespace Machine

section Field

variable {q : Nat} [Fact q.Prime] {x : ZMod q}

/-- R244, by Fermat; 0 has the power 0. -/
theorem pow_sub_two_eq_inv (hq : 2 < q) (x : ZMod q) : x ^ (q - 2) = x⁻¹ := by
  by_cases hx : x = 0
  · rw [hx, zero_pow (by omega), inv_zero]
  · apply eq_inv_of_mul_eq_one_left
    rw [← pow_succ, show q - 2 + 1 = q - 1 by omega, ZMod.pow_card_sub_one_eq_one hx]

/-- R247: the square of x^((q+1)/4) is x·x^((q−1)/2), and Euler gives the second factor. -/
theorem sq_pow_sqrt34 (hq : q % 4 = 3) (hx : IsSquare x) : (x ^ ((q + 1) / 4)) ^ 2 = x := by
  by_cases h0 : x = 0
  · rw [h0, zero_pow (by omega), zero_pow two_ne_zero]
  · rw [← pow_mul, show (q + 1) / 4 * 2 = q / 2 + 1 by omega, pow_succ, (ZMod.euler_criterion q h0).mp hx, one_mul]

/-- R250: the single ladder of ISQRT, as (3q−5)/4 + (q+1)/4 = q − 1. -/
theorem pow_isqrt34 (hq : q % 4 = 3) (x : ZMod q) : x ^ ((3 * q - 5) / 4) = (x ^ ((q + 1) / 4))⁻¹ := by
  by_cases hx : x = 0
  · rw [hx, zero_pow (by omega), zero_pow (by omega), inv_zero]
  · apply eq_inv_of_mul_eq_one_left
    rw [← pow_add, show (3 * q - 5) / 4 + (q + 1) / 4 = q - 1 by omega, ZMod.pow_card_sub_one_eq_one hx]

/-- R249: the square of I is −1, as 2 is no square where q ≡ 5 (mod 8). -/
theorem sq_two_pow_quartic (hq : q % 8 = 5) : ((2 : ZMod q) ^ ((q - 1) / 4)) ^ 2 = -1 := by
  have hsq : ¬IsSquare (2 : ZMod q) := by
    rw [ZMod.exists_sq_eq_two_iff (by omega)]
    omega
  have h0 : (2 : ZMod q) ≠ 0 := fun h => hsq (h ▸ IsSquare.zero)
  rw [← pow_mul, show (q - 1) / 4 * 2 = q / 2 by omega]
  exact (ZMod.pow_div_two_eq_neg_one_or_one q h0).resolve_left (mt (ZMod.euler_criterion q h0).mpr hsq)

/-- R248: the square of x^((q+3)/8) is x times the quartic symbol of x, ±1 for a square, and I² takes a −1 away. -/
theorem sq_pow_sqrt58 (hq : q % 8 = 5) (hx : IsSquare x) :
    (x ^ ((q + 3) / 8) * if x ^ ((q - 1) / 4) = -1 then 2 ^ ((q - 1) / 4) else 1) ^ 2 = x := by
  by_cases h0 : x = 0
  · rw [h0, zero_pow (by omega), zero_mul, zero_pow two_ne_zero]
  · have hroot : (x ^ ((q + 3) / 8)) ^ 2 = x * x ^ ((q - 1) / 4) := by
      rw [← pow_mul, ← pow_succ', show (q + 3) / 8 * 2 = (q - 1) / 4 + 1 by omega]
    have hsymbol : x ^ ((q - 1) / 4) = 1 ∨ x ^ ((q - 1) / 4) = -1 := by
      rw [← sq_eq_one_iff, ← pow_mul, show (q - 1) / 4 * 2 = q / 2 by omega]
      exact (ZMod.euler_criterion q h0).mp hx
    rw [mul_pow, hroot]
    split
    · next hminus => rw [hminus, sq_two_pow_quartic hq]; ring
    · next hne => rw [hsymbol.resolve_right hne, one_pow, mul_one, mul_one]

end Field

/-- A reduced number is p − 1 exactly where it is −1 in the residue field. -/
theorem natCast_eq_neg_one_iff {m a : Nat} (hm : 0 < m) (ha : a < m) : (a : ZMod m) = -1 ↔ a = m - 1 := by
  have hcast : ((m - 1 : Nat) : ZMod m) = -1 := by
    rw [Nat.cast_sub hm, ZMod.natCast_self, Nat.cast_one, zero_sub]
  rw [← hcast, natCast_inj_of_lt ha (by omega)]

section Residues

variable {p : Params} (hp : p.LadderField)
include hp

theorem invMod_lt (x : Nat) : invMod p x < p.prime := powMod_lt _ _ _ hp.prime.one_lt

/-- INV's ladder inverts, and leaves 0 (R244). -/
theorem natCast_invMod (x : Nat) : (invMod p x : ZMod p.prime) = (x : ZMod p.prime)⁻¹ := by
  have : Fact p.prime.Prime := ⟨hp.prime⟩
  rw [invMod, natCast_powMod hp.prime.one_lt]
  exact pow_sub_two_eq_inv hp.two_lt _

theorem invMod_zero : invMod p 0 = 0 := by
  rw [invMod, powMod_eq _ _ _ hp.prime.one_lt, expInv, zero_pow (by have := hp.two_lt; omega), Nat.zero_mod]

/-- SQRT's value where p ≡ 3 (mod 4) (R247). -/
theorem sqrtMod_of_three_mod_four (h : p.prime % 4 = 3) (x : Nat) :
    sqrtMod p x = x ^ ((p.prime + 1) / 4) % p.prime := by
  rw [sqrtMod, if_pos (by rw [Params.pclass, if_pos h]), sqrt34, powMod_eq _ _ _ hp.prime.one_lt, expSqrt34]

/-- SQRT's value where p ≡ 5 (mod 8): the factor m is I or 1 (R248, R249). -/
theorem sqrtMod_of_five_mod_eight (h : p.prime % 8 = 5) (x : Nat) :
    sqrtMod p x = x ^ ((p.prime + 3) / 8) *
      (if x ^ ((p.prime - 1) / 4) % p.prime = p.prime - 1 then 2 ^ ((p.prime - 1) / 4) else 1) % p.prime := by
  have hone := hp.prime.one_lt
  have hclass : p.pclass = 2 := by rw [Params.pclass, if_neg (by omega), if_pos h]
  have hI : 0 < 2 ^ ((p.prime - 1) / 4) % p.prime := Nat.pos_of_ne_zero fun h0 => by
    have hdvd := (Nat.prime_dvd_prime_iff_eq hp.prime Nat.prime_two).mp
      (hp.prime.dvd_of_dvd_pow (Nat.dvd_of_mod_eq_zero h0))
    omega
  rw [sqrtMod, if_neg (by omega), sqrt58]
  simp only [constI_residue hp.toSound hone hclass, Option.getD_some, powMod_eq _ _ _ hone, expSqrt58, expQuartic]
  split
  · rw [Nat.one_mul, Nat.sub_add_cancel hI, Nat.mod_mod, ← Nat.mul_mod]
  · rw [Nat.zero_mul, Nat.zero_add, ← Nat.mul_mod]

theorem sqrtMod_lt (x : Nat) : sqrtMod p x < p.prime := by
  have hpos := hp.prime.pos
  rcases hp.classes with h | h
  · rw [sqrtMod_of_three_mod_four hp h]
    exact Nat.mod_lt _ hpos
  · rw [sqrtMod_of_five_mod_eight hp h]
    exact Nat.mod_lt _ hpos

/-- The value of the formula is a square root of a square (R246). -/
theorem sq_natCast_sqrtMod {x : Nat} (hx : IsSquare (x : ZMod p.prime)) :
    (sqrtMod p x : ZMod p.prime) ^ 2 = x := by
  have : Fact p.prime.Prime := ⟨hp.prime⟩
  rcases hp.classes with h | h
  · rw [sqrtMod_of_three_mod_four hp h, ZMod.natCast_mod, Nat.cast_pow]
    exact sq_pow_sqrt34 h hx
  · have hcond : x ^ ((p.prime - 1) / 4) % p.prime = p.prime - 1 ↔ (x : ZMod p.prime) ^ ((p.prime - 1) / 4) = -1 := by
      rw [← natCast_eq_neg_one_iff hp.prime.pos (Nat.mod_lt _ hp.prime.pos), ZMod.natCast_mod, Nat.cast_pow]
    simp only [sqrtMod_of_five_mod_eight hp h, hcond, ZMod.natCast_mod]
    push_cast
    exact sq_pow_sqrt58 h hx

/-- ISQRT's value where p ≡ 3 (mod 4) is that of the single ladder (R250). -/
theorem invMod_sqrtMod_of_three_mod_four (h : p.prime % 4 = 3) (x : Nat) :
    invMod p (sqrtMod p x) = x ^ ((3 * p.prime - 5) / 4) % p.prime := by
  have : Fact p.prime.Prime := ⟨hp.prime⟩
  rw [← natCast_inj_of_lt (invMod_lt hp _) (Nat.mod_lt _ hp.prime.pos), natCast_invMod hp,
    sqrtMod_of_three_mod_four hp h, ZMod.natCast_mod, ZMod.natCast_mod, Nat.cast_pow, Nat.cast_pow, pow_isqrt34 h]

theorem sqrtMod_zero : sqrtMod p 0 = 0 := by
  have : Fact p.prime.Prime := ⟨hp.prime⟩
  have hsq := sq_natCast_sqrtMod hp (x := 0) (Nat.cast_zero (R := ZMod p.prime) ▸ IsSquare.zero)
  have hroot : (sqrtMod p 0 : ZMod p.prime) = 0 := sq_eq_zero_iff.mp (hsq.trans Nat.cast_zero)
  exact (natCast_inj_of_lt (sqrtMod_lt hp 0) hp.prime.pos).mp (hroot.trans Nat.cast_zero.symm)

/-- The value of ISQRT is an inverse root of a non-zero square (R250). -/
theorem mul_sq_natCast_invMod_sqrtMod {x : Nat} (hx : IsSquare (x : ZMod p.prime)) (h0 : (x : ZMod p.prime) ≠ 0) :
    (x : ZMod p.prime) * (invMod p (sqrtMod p x) : ZMod p.prime) ^ 2 = 1 := by
  have : Fact p.prime.Prime := ⟨hp.prime⟩
  rw [natCast_invMod hp, inv_pow, sq_natCast_sqrtMod hp hx, mul_inv_cancel₀ h0]

/-- The RESULT of LEG, by Euler's power as an element of the residue field (R251). -/
theorem legendreCode_eq {t : Nat} (ht : t < p.prime) :
    legendreCode t =
      if (t : ZMod p.prime) = 1 then 1#64 else if (t : ZMod p.prime) = 0 then 0#64 else 0xFFFFFFFFFFFFFFFF#64 := by
  have one : (t : ZMod p.prime) = 1 ↔ t = 1 := by rw [← natCast_inj_of_lt ht hp.prime.one_lt, Nat.cast_one]
  have zero : (t : ZMod p.prime) = 0 ↔ t = 0 := by rw [← natCast_inj_of_lt ht hp.prime.pos, Nat.cast_zero]
  simp only [legendreCode, one, zero]

/-- The RESULT of LEG is the Legendre symbol, whose value in the residue field is Euler's power (R251). -/
theorem toInt_legendreCode_powMod {x : Nat} {a : Int} (hx : (x : ZMod p.prime) = a) :
    (legendreCode (powMod p.prime x (expLeg p))).toInt = jacobiSym a p.prime := by
  have : Fact p.prime.Prime := ⟨hp.prime⟩
  have : Fact (2 < p.prime) := ⟨hp.two_lt⟩
  have hpow : (powMod p.prime x (expLeg p) : ZMod p.prime) = (legendreSym p.prime a : ZMod p.prime) := by
    rw [natCast_powMod hp.prime.one_lt, hx, legendreSym.eq_pow, expLeg,
      show (p.prime - 1) / 2 = p.prime / 2 by have := hp.classes; omega]
  rw [← jacobiSym.legendreSym.to_jacobiSym, legendreCode_eq hp (powMod_lt _ _ _ hp.prime.one_lt), hpow]
  by_cases h0 : (a : ZMod p.prime) = 0
  · rw [(legendreSym.eq_zero_iff _ _).mpr h0, Int.cast_zero, if_neg zero_ne_one, if_pos rfl]
    rfl
  · rcases legendreSym.eq_one_or_neg_one p.prime h0 with h | h
    · rw [h, Int.cast_one, if_pos rfl]
      rfl
    · rw [h, Int.cast_neg, Int.cast_one, if_neg ZMod.neg_one_ne_one, if_neg (neg_ne_zero.mpr one_ne_zero)]
      rfl

/-- Where the symbol is 1, the operand is a non-zero square (R251). -/
theorem isSquare_of_jacobiSym_eq_one {a : Int} (h : jacobiSym a p.prime = 1) :
    (a : ZMod p.prime) ≠ 0 ∧ IsSquare (a : ZMod p.prime) := by
  have : Fact p.prime.Prime := ⟨hp.prime⟩
  rw [← jacobiSym.legendreSym.to_jacobiSym] at h
  have h0 : (a : ZMod p.prime) ≠ 0 := fun h0 => by
    rw [(legendreSym.eq_zero_iff _ _).mpr h0] at h
    exact zero_ne_one h
  exact ⟨h0, (legendreSym.eq_one_iff _ h0).mp h⟩

/-- The symbol of a non-zero square is 1 (R251). -/
theorem jacobiSym_sq_eq_one {a : Int} (h : (a : ZMod p.prime) ≠ 0) : jacobiSym (a ^ 2) p.prime = 1 := by
  have : Fact p.prime.Prime := ⟨hp.prime⟩
  rw [← jacobiSym.legendreSym.to_jacobiSym]
  exact legendreSym.sq_one' _ h

end Residues

end Machine

end Sys2Proof
end

section
/-! PROOFS, the commands of the power ladders (43_power_ladders.md R244 to R254): what INV, DIV, SQRT, ISQRT and LEG write from
WF operands, and their laws. -/

namespace Sys2Proof

open Sys2Proof.Machine Sys2Proof.Safety

namespace Machine

section Runs

variable {s : State} {a b : Reg}

/-- What a ladder leaves: a residue as a canonical vector in rd; what it staged, its completion scrubs (R240). -/
def ladderEnd (s : State) (rd : Reg) (v : Nat) : State := (s.setElem rd (canonNat s.params v)).complete .ok

theorem exec_inv_of_ok (ha : s.operandOk a = true) (rd : Reg) :
    exec (.inv rd a) s = .next (ladderEnd s rd (invMod s.params (s.elemResidue a))) := if_pos ha

theorem exec_div_of_ok (ha : s.operandOk a = true) (hb : s.operandOk b = true) (rd : Reg) :
    exec (.div rd a b) s =
      .next (ladderEnd s rd (s.elemResidue a * invMod s.params (s.elemResidue b) % s.params.prime)) :=
  if_pos (both_ok ha hb)

theorem exec_sqrt_of_ok (ha : s.operandOk a = true) (rd : Reg) :
    exec (.sqrt rd a) s = .next (ladderEnd s rd (sqrtMod s.params (s.elemResidue a))) := if_pos ha

theorem exec_isqrt_of_ok (ha : s.operandOk a = true) (rd : Reg) :
    exec (.isqrt rd a) s = .next (ladderEnd s rd (invMod s.params (sqrtMod s.params (s.elemResidue a)))) := if_pos ha

theorem exec_leg_of_ok (ha : s.operandOk a = true) :
    exec (.leg a) s = .next (((s.stage (s.elem a) s.d1).setResult
      (legendreCode (powMod s.params.prime (s.elemResidue a) (expLeg s.params)))).complete .ok) := if_pos ha

/-- A ladder's result is Normalized (R240). -/
theorem normalResult_ladderEnd (hp : s.params.Sound) (rd : Reg) {v : Nat} (hv : v < s.params.prime) :
    NormalResult rd v s (ladderEnd s rd v) := by
  have hw : CommandWrites (.scrub rd) s (s.setElem rd (canonNat s.params v)) := .setElem rfl fun _ => length_canon ..
  have h := normalResult_of_canon hp (hw.writesElem rfl rfl) (s.setElem_elem_same rd _)
  rwa [← Int.natCast_emod, Int.toNat_natCast, Nat.mod_eq_of_lt hv] at h

/-- The residue of an operand, in the residue field (R140). -/
theorem natCast_elemResidue (hp : s.params.Sound) (a : Reg) :
    (s.elemResidue a : ZMod s.params.prime) = (s.elemVal a : ZMod s.params.prime) := natCast_residue hp _

theorem elemVal_ne_zero_iff (hp : s.params.Sound) :
    (s.elemVal a : ZMod s.params.prime) ≠ 0 ↔ s.elemResidue a ≠ 0 := by
  have hpos := prime_pos hp
  have hlt : s.elemResidue a < s.params.prime := (Int.toNat_lt (Int.emod_nonneg _ hpos.ne')).mpr (Int.emod_lt_of_pos _ hpos)
  rw [← natCast_elemResidue hp, ← Nat.cast_zero, Ne, natCast_inj_of_lt hlt (by omega)]

section Congruences

variable (hp : s.params.LadderField)
include hp

/-- R244. -/
theorem mul_invMod_modEq (h : s.elemResidue a ≠ 0) :
    s.elemVal a * (invMod s.params (s.elemResidue a) : Nat) ≡ 1 [ZMOD (s.params.prime : Int)] := by
  have : Fact s.params.prime.Prime := ⟨hp.prime⟩
  rw [← ZMod.intCast_eq_intCast_iff, Int.cast_mul, Int.cast_natCast, Int.cast_one, natCast_invMod hp,
    natCast_elemResidue hp.toSound, mul_inv_cancel₀ ((elemVal_ne_zero_iff hp.toSound).mpr h)]

/-- R245. -/
theorem div_mul_modEq (h : s.elemResidue b ≠ 0) :
    (s.elemResidue a * invMod s.params (s.elemResidue b) % s.params.prime : Nat) * s.elemVal b ≡ s.elemVal a
      [ZMOD (s.params.prime : Int)] := by
  have : Fact s.params.prime.Prime := ⟨hp.prime⟩
  rw [← ZMod.intCast_eq_intCast_iff, Int.cast_mul, Int.cast_natCast, ZMod.natCast_mod, Nat.cast_mul, natCast_invMod hp,
    natCast_elemResidue hp.toSound, natCast_elemResidue hp.toSound,
    inv_mul_cancel_right₀ ((elemVal_ne_zero_iff hp.toSound).mpr h)]

/-- R246. -/
theorem sq_sqrtMod_modEq (h : IsSquare (s.elemVal a : ZMod s.params.prime)) :
    (sqrtMod s.params (s.elemResidue a) : Int) ^ 2 ≡ s.elemVal a [ZMOD (s.params.prime : Int)] := by
  have hx := natCast_elemResidue hp.toSound a
  rw [← ZMod.intCast_eq_intCast_iff, Int.cast_pow, Int.cast_natCast, ← hx]
  exact sq_natCast_sqrtMod hp (hx ▸ h)

/-- R250. -/
theorem mul_sq_isqrt_modEq (h : IsSquare (s.elemVal a : ZMod s.params.prime)) (h0 : s.elemResidue a ≠ 0) :
    s.elemVal a * (invMod s.params (sqrtMod s.params (s.elemResidue a)) : Int) ^ 2 ≡ 1 [ZMOD (s.params.prime : Int)] := by
  have hx := natCast_elemResidue hp.toSound a
  rw [← ZMod.intCast_eq_intCast_iff, Int.cast_mul, Int.cast_pow, Int.cast_natCast, Int.cast_one, ← hx]
  exact mul_sq_natCast_invMod_sqrtMod hp (hx ▸ h) (hx ▸ (elemVal_ne_zero_iff hp.toSound).mpr h0)

end Congruences

end Runs

section Laws

variable {p : Params} {s t : State} {i : Instr} {r rd a b : Reg} {x y : Int}

theorem Yields.of_normalResult {v : Nat} (h : NormalResult rd v s t) (he : exec i s = .next t) :
    Yields s.params i s rd v := by
  have hparams : t.params = s.params := congrArg Setup.params h.writes.frame.setup
  exact ⟨t, he, h.writes, hparams, by rw [State.operandOk, hparams]; exact h.wf,
    by rw [State.elemVal, hparams, h.value]⟩

/-- SQR squares a residue (R219). -/
theorem yields_sqr (hp : p.Sound) (rd : Reg) (ha : Holds p s a x) : Yields p (.sqr rd a) s rd (x ^ 2) := by
  rw [pow_two]
  have h := looseResult_mul hp rd ha ha
  obtain ⟨rfl, hok, -⟩ := ha
  exact .of_looseResult h (exec_sqr_of_ok hok rd)

theorem yields_inv (hp : s.params.LadderField) (rd : Reg) (ha : s.operandOk a = true) :
    Yields s.params (.inv rd a) s rd (invMod s.params (s.elemResidue a)) :=
  .of_normalResult (normalResult_ladderEnd hp.toSound rd (invMod_lt hp _)) (exec_inv_of_ok ha rd)

theorem yields_sqrt (hp : s.params.LadderField) (rd : Reg) (ha : s.operandOk a = true) :
    Yields s.params (.sqrt rd a) s rd (sqrtMod s.params (s.elemResidue a)) :=
  .of_normalResult (normalResult_ladderEnd hp.toSound rd (sqrtMod_lt hp _)) (exec_sqrt_of_ok ha rd)

theorem yields_isqrt (hp : s.params.LadderField) (rd : Reg) (ha : s.operandOk a = true) :
    Yields s.params (.isqrt rd a) s rd (invMod s.params (sqrtMod s.params (s.elemResidue a))) :=
  .of_normalResult (normalResult_ladderEnd hp.toSound rd (invMod_lt hp _)) (exec_isqrt_of_ok ha rd)

/-- What LEG answers of a register that holds x (R251). -/
theorem exec_leg_of_holds (hp : p.LadderField) (ha : Holds p s a x) :
    ∃ t, exec (.leg a) s = .next t ∧ WritesResult s t ∧ t.result.toInt = jacobiSym x p.prime := by
  obtain ⟨rfl, hok, hvalue⟩ := ha
  have hx : (s.elemResidue a : ZMod s.params.prime) = x := by
    rw [natCast_elemResidue hp.toSound, ZMod.intCast_eq_intCast_iff]
    exact hvalue
  exact ⟨_, exec_leg_of_ok hok, writesResult_of_query .., toInt_legendreCode_powMod hp hx⟩

/-- LEG of a product is the symbol of the product of the residues (R254). -/
theorem execAll_mul_leg (hp : p.LadderField) (rd : Reg) (ha : Holds p s a x) (hb : Holds p s b y) :
    ∃ t, execAll [.mul rd a b, .leg rd] s = .next t ∧ t.result.toInt = jacobiSym (x * y) p.prime := by
  obtain ⟨u, hu, -, hxy⟩ := yields_mul hp.toSound rd ha hb
  obtain ⟨t, ht, -, hresult⟩ := exec_leg_of_holds hp hxy
  exact ⟨t, (execAll_cons hu _).trans (execAll_cons ht _), hresult⟩

end Laws

end Machine

/-- Settles O37: the ladder of exponent p − 2 inverts a unit of the residue field, and leaves 0. -/
theorem invDivResults : Obligations.InvDivResults := by
  intro s rd rs1 rs2 hdec ok1 ok2
  have hp := Params.ladderField_of_decided hdec
  refine ⟨⟨_, _, exec_inv_of_ok ok1 rd, normalResult_ladderEnd hp.toSound rd (invMod_lt hp _), fun h0 => ?_, fun h0 => ?_⟩,
    ⟨_, _, exec_div_of_ok ok1 ok2 rd, normalResult_ladderEnd hp.toSound rd (Nat.mod_lt _ hp.prime.pos), fun h0 => ?_,
      div_mul_modEq hp⟩⟩
  · rw [h0, invMod_zero hp]
  · rw [Int.mul_comm]
    exact mul_invMod_modEq hp h0
  · rw [h0, invMod_zero hp, Nat.mul_zero, Nat.zero_mod]

/-- Settles O38: the values of the formulas, whose squares are computed in the residue field. -/
theorem sqrtIsqrtResults : Obligations.SqrtIsqrtResults := by
  intro s rd rs1 hdec ok1 p x root58
  have hp := Params.ladderField_of_decided hdec
  refine ⟨⟨_, _, exec_sqrt_of_ok ok1 rd, normalResult_ladderEnd hp.toSound rd (sqrtMod_lt hp x),
      fun h => sqrtMod_of_three_mod_four hp h x, fun h => sqrtMod_of_five_mod_eight hp h x, sq_sqrtMod_modEq hp⟩,
    ⟨_, _, exec_isqrt_of_ok ok1 rd, normalResult_ladderEnd hp.toSound rd (invMod_lt hp (sqrtMod s.params x)),
      fun h => invMod_sqrtMod_of_three_mod_four hp h x, fun h => ?five, fun h0 => ?zero, mul_sq_isqrt_modEq hp⟩⟩
  case five =>
    rw [sqrtMod_of_five_mod_eight hp h]
    exact powMod_eq _ _ _ hp.prime.one_lt
  case zero => rw [show s.elemResidue rs1 = 0 from h0, sqrtMod_zero hp, invMod_zero hp]

/-- Settles O39: Euler's power is the Legendre symbol in the residue field, and RESULT codes it. -/
theorem legendreResult : Obligations.LegendreResult := by
  intro s rs1 hdec ok1
  exact exec_leg_of_holds (Params.ladderField_of_decided hdec) (.of_ok ok1)

/-- Settles O49: each sequence is followed command by command, to a NORM or a LEG of a residue; LEG(a) = 1 makes a a non-zero
square, and the symbol is multiplicative. -/
theorem powerLadderLaws : Obligations.PowerLadderLaws := by
  intro s hdec ok0 ok1
  have hp := Params.ladderField_of_decided hdec
  have hs := hp.toSound
  have h0 := Holds.of_ok ok0
  have h1 := Holds.of_ok ok1
  obtain ⟨legA, hA, -, symA⟩ := exec_leg_of_holds hp h0
  obtain ⟨legB, hB, -, symB⟩ := exec_leg_of_holds hp h1
  obtain ⟨legAB, hAB, symAB⟩ := execAll_mul_leg hp 3 h0 h1
  obtain ⟨legAA, hAA, symAA⟩ := execAll_mul_leg hp 3 h0 h0
  have inv : Computes s.params [.inv 3 0, .mul 4 0 3, .norm 5 4] s 5
      (s.elemVal 0 * invMod s.params (s.elemResidue 0)) :=
    (yields_inv hp 3 ok0).andThen fun _ hw h3 =>
      (yields_mul hs 4 (h0.kept hw (by decide)) h3).andThen fun _ _ h => computes_norm hs 5 h
  have sqrt : Computes s.params [.sqrt 3 0, .sqr 4 3, .norm 5 4] s 5
      ((sqrtMod s.params (s.elemResidue 0) : Int) ^ 2) :=
    (yields_sqrt hp 3 ok0).andThen fun _ _ h3 =>
      (yields_sqr hs 4 h3).andThen fun _ _ h => computes_norm hs 5 h
  have isqrt : Computes s.params [.isqrt 3 0, .sqr 4 3, .mul 4 0 4, .norm 5 4] s 5
      (s.elemVal 0 * (invMod s.params (sqrtMod s.params (s.elemResidue 0)) : Int) ^ 2) :=
    (yields_isqrt hp 3 ok0).andThen fun _ hw h3 =>
      (yields_sqr hs 4 h3).andThen fun _ hw' h4 =>
        (yields_mul hs 4 ((h0.kept hw (by decide)).kept hw' (by decide)) h4).andThen fun _ _ h => computes_norm hs 5 h
  obtain ⟨a1, run1, -, elem1⟩ := inv
  obtain ⟨a2, run2, -, elem2⟩ := sqrt
  obtain ⟨a3, run3, -, elem3⟩ := isqrt
  have square (h : legA.result = 1#64) : s.elemResidue 0 ≠ 0 ∧ IsSquare (s.elemVal 0 : ZMod s.params.prime) := by
    rw [h] at symA
    obtain ⟨hne, hsq⟩ := isSquare_of_jacobiSym_eq_one hp symA.symm
    exact ⟨(elemVal_ne_zero_iff hs).mp hne, hsq⟩
  refine ⟨legA, legB, legAB, legAA, a1, a2, _, a3, hA, hB, hAB, hAA, run1, run2, exec_norm_of_ok ok0 5, run3,
    fun hne => ?inverse, fun hleg => ?root, fun hleg => ?inverseRoot, fun hne => ?square, ?multiplicative⟩
  case inverse =>
    rw [elem1, canon_eq_canon_iff hs]
    exact mul_invMod_modEq hp hne
  case root =>
    rw [elem2, normed_elem_same, canon_eq_canon_iff hs]
    exact sq_sqrtMod_modEq hp (square hleg).2
  case inverseRoot =>
    obtain ⟨hne, hsq⟩ := square hleg
    rw [elem3, canon_eq_canon_iff hs]
    exact mul_sq_isqrt_modEq hp hsq hne
  case square =>
    apply BitVec.eq_of_toInt_eq
    rw [symAA, ← pow_two]
    exact jacobiSym_sq_eq_one hp ((elemVal_ne_zero_iff hs).mpr hne)
  case multiplicative => rw [symAB, symA, symB, jacobiSym.mul_left]

end Sys2Proof
end

section
/-! PROOFS, the data path of the power ladders (43_power_ladders.md R241, R242): the reference ladder over the block's
multiplier and normalizer. -/

namespace Sys2Proof

open Sys2Proof.Machine

namespace Machine

section Ladder

variable {p : Params} {a b : Element}

/-- A bit of the exponent below the bits that are done: the power's next exponent (R242). -/
theorem div_two_pow_eq_double_add_testBit (e k : Nat) :
    e / 2 ^ k = 2 * (e / 2 ^ (k + 1)) + if e.testBit k then 1 else 0 := by
  rw [Nat.testBit_eq_decide_div_mod_eq, pow_succ, ← Nat.div_div_eq_div_mul]
  simp only [decide_eq_true_eq]
  split <;> omega

variable (hq : p.MulRoom)
include hq

/-- The multiplier keeps vectors WF and multiplies their residues (R218). -/
theorem mulPath_spec (ha : wf p a = true) (hb : wf p b = true) :
    wf p (mulPath p a b) = true ∧ val p (mulPath p a b) ≡ val p a * val p b [ZMOD (p.prime : Int)] := by
  have hp := hq.toSound
  have hV := inWfRange_reduceProduct hp (inWfRange_of_wf hp ha) (inWfRange_of_wf hp hb)
  rw [mulPath_eq hq ha hb, val_chain hp hV.1 hV.2]
  exact ⟨wf_chain hp hV.1 hV.2, reduceProduct_modEq hp _⟩

/-- The ladder goes on from the power of the exponent's high bits to the power of the whole exponent (R242). -/
theorem ladderSteps_spec (ha : wf p a = true) (e : Nat) : ∀ (k : Nat) (r : Element), wf p r = true →
    val p r ≡ val p a ^ (e / 2 ^ k) [ZMOD (p.prime : Int)] →
    wf p (ladderSteps p a (bitsBelow k e) r) = true ∧
      val p (ladderSteps p a (bitsBelow k e) r) ≡ val p a ^ e [ZMOD (p.prime : Int)]
  | 0, r, hr, hval => ⟨hr, by simpa [bitsBelow, ladderSteps] using hval⟩
  | k + 1, r, hr, hval => by
    obtain ⟨hsq, hsqVal⟩ := mulPath_spec hq hr hr
    have hdouble : val p (mulPath p r r) ≡ val p a ^ (2 * (e / 2 ^ (k + 1))) [ZMOD (p.prime : Int)] := by
      rw [two_mul, pow_add]
      exact hsqVal.trans (hval.mul hval)
    have hexp := div_two_pow_eq_double_add_testBit e k
    rw [bitsBelow, ladderSteps]
    cases hbit : e.testBit k with
    | false =>
      rw [hbit] at hexp
      exact ladderSteps_spec ha e k _ hsq (by rw [hexp]; exact hdouble)
    | true =>
      obtain ⟨hmul, hmulVal⟩ := mulPath_spec hq hsq ha
      rw [hbit, if_pos rfl] at hexp
      exact ladderSteps_spec ha e k _ hmul (by rw [hexp, pow_succ]; exact hmulVal.trans (hdouble.mul_right _))

end Ladder

end Machine

/-- Settles O60: before its first step the ladder holds the power of the exponent's top bit, the operand itself. -/
theorem ladderPathIsThePower : Obligations.LadderPathIsThePower := by
  intro p a e hdec ha he
  have hq := Params.mulRoom_of_decided hdec
  obtain ⟨-, hc⟩ := Params.decided_db_c p hdec
  have htop : e / 2 ^ Nat.log2 e = 1 := by
    have hlo : 2 ^ Nat.log2 e ≤ e := Nat.log2_self_le (by omega)
    have hhi : e < 2 ^ (Nat.log2 e + 1) := Nat.lt_log2_self
    rw [pow_succ] at hhi
    exact Nat.div_eq_of_lt_le (by omega) (by omega)
  obtain ⟨hwf, hval⟩ := ladderSteps_spec hq ha e (Nat.log2 e) a ha (by rw [htop, pow_one])
  rw [ladderPath, normalizePath_eq hq.toSound hc (by rw [hq.db_eq]; decide) hwf]
  exact (canon_eq_canon_iff hq.toSound).mpr hval

end Sys2Proof
end

section
/-! PROOFS, data movement, element lifecycle and queries (44_pack_hygiene.md R281 to R291): the packed image's bytes
against its value, the range of SCALAR against p, a scrubbed vector, and the final bits of CMPEQ and ISZERO. -/

namespace Sys2Proof

open Sys2Proof.Machine Sys2Proof.Safety

namespace Params

/-- PB bytes hold n bits (R8(e)). -/
theorem n_le_packedBytes (p : Params) : p.n ≤ 8 * p.packedBytes := by
  rw [packedBytes]
  omega

theorem prime_le_two_pow (p : Params) : p.prime ≤ 2 ^ (8 * p.packedBytes) :=
  (Nat.sub_le ..).trans (Nat.pow_le_pow_right (by decide) p.n_le_packedBytes)

/-- The positive scalars of ADDS, SUBS and SETI lie below p (R286). -/
theorem Sound.addMax_lt_prime {p : Params} (hp : p.Sound) : p.addMax < p.prime := by
  have hlimb : (2 : Int) ^ p.db ≤ 2 ^ (p.db * (p.numLimbs - 1)) :=
    pow_le_pow_right₀ (by norm_num) (Nat.le_mul_of_pos_right _ (by have := hp.two_limbs; omega))
  rw [addMax, hp.prime_eq]
  linarith [hp.two_pow_low_le, hp.c_lt]

end Params

namespace Machine

/-! ### The packed image: its bytes and its value -/

section Image

/-- An image made of the bytes of `v` has the value of `v`'s low bytes (R75, R283). -/
theorem imageValue_of_valueBytes {s : State} {v : Nat} : ∀ {k : Nat}, (∀ j < k, s.pbufByte j = valueByte v j) →
    s.imageValue k = v % 2 ^ (8 * k)
  | 0, _ => by rw [State.imageValue, Nat.mul_zero, pow_zero, Nat.mod_one]
  | k + 1, h => by
    rw [State.imageValue, imageValue_of_valueBytes fun j hj => h j (Nat.lt_succ_of_lt hj), h k (Nat.lt_succ_self k),
      toNat_valueByte, Nat.mul_succ, pow_add, Nat.mod_mul, Nat.mul_comm (_ % 256)]
    rfl

/-- The bytes of an image's value are the image's (R75, R281). -/
theorem valueByte_imageValue (s : State) {j : Nat} : ∀ {k : Nat}, j < k → valueByte (s.imageValue k) j = s.pbufByte j
  | k + 1, hj => by
    apply BitVec.eq_of_toNat_eq
    rw [toNat_valueByte, State.imageValue]
    obtain rfl | hlt : j = k ∨ j < k := by omega
    · have hbyte : (s.pbufByte j).toNat < 256 := (s.pbufByte j).isLt
      rw [Nat.add_mul_div_right _ _ (by positivity), Nat.div_eq_of_lt (imageValue_lt s j), Nat.zero_add,
        Nat.mod_eq_of_lt hbyte]
    · obtain ⟨d, rfl⟩ := Nat.exists_eq_add_of_lt hlt
      have hsplit : (2 : Nat) ^ (8 * (j + d + 1)) = 256 * 2 ^ (8 * d) * 2 ^ (8 * j) := by
        rw [show (256 : Nat) = 2 ^ 8 from rfl, ← pow_add, ← pow_add]
        congr 1
        omega
      rw [hsplit, ← Nat.mul_assoc, Nat.add_mul_div_right _ _ (by positivity), Nat.mul_left_comm,
        Nat.add_mul_mod_self_left, ← toNat_valueByte, valueByte_imageValue s hlt]

/-- The bytes that PACK stores (R283). -/
theorem pbufByte_writeImage (s : State) (byte : Nat → BitVec 8) {j : Nat} (hj : j < s.params.packedBytes) :
    (s.writeImage byte).pbufByte j = byte j := (pbufByte_of_imageWords rfl j).trans (if_pos hj)

/-- The value of the image that PACK stores (R283). -/
theorem imageValue_writeImage (s : State) {v : Nat} (hv : v < s.params.prime) :
    (s.writeImage (valueByte v)).imageValue s.params.packedBytes = v := by
  rw [imageValue_of_valueBytes fun j hj => pbufByte_writeImage s _ hj]
  exact Nat.mod_eq_of_lt (hv.trans_le s.params.prime_le_two_pow)

/-- Completion keeps the packed image (R327). -/
theorem imageValue_complete (s : State) (c : Completion) : ∀ k, (s.complete c).imageValue k = s.imageValue k
  | 0 => rfl
  | k + 1 => congrArg (· + (s.pbufByte k).toNat * 2 ^ (8 * k)) (imageValue_complete s c k)

end Image

/-! ### Elements that hold a given value -/

section Elements

/-- A value in [0, p) is chained to its canonical vector (R146). -/
theorem chain_eq_canon {p : Params} {v : Int} (h0 : 0 ≤ v) (h1 : v < p.prime) : chain p v = canon p v := by
  rw [canon, Int.emod_eq_of_lt h0 h1]

variable {p : Params} (hp : p.Sound)
include hp

/-- A scrubbed vector is not WF: its low limbs read −1 (R287). -/
theorem wf_scrubbed : wf p p.scrubbed = false := by
  refine Bool.eq_false_iff.mpr fun h => ?_
  have hlow := dropLast_low_of_wf h
  rw [Params.scrubbed, List.dropLast_replicate, List.all_replicate,
    if_neg (by have := hp.two_limbs; omega), lowLimbOk_iff] at hlow
  exact absurd hlow.1 (by decide)

theorem residue_lt (L : Element) : residue p L < p.prime :=
  (Int.toNat_lt (Int.emod_nonneg _ (prime_pos hp).ne')).mpr (Int.emod_lt_of_pos _ (prime_pos hp))

/-- The canonical vector of a value is the chained vector of its residue (R146). -/
theorem canon_val (L : Element) : canon p (val p L) = chain p (residue p L) := by
  rw [residue, Int.toNat_of_nonneg (Int.emod_nonneg _ (prime_pos hp).ne'), canon]

end Elements

/-! ### The final bits of the queries -/

section Queries

/-- The top bit of acc | (0 − acc) is set exactly where acc is not 0 (R289). -/
theorem msb_or_neg (acc : Word) : (acc ||| (0#64 - acc)).msb = decide (acc ≠ 0#64) := by
  rw [BitVec.zero_sub, BitVec.msb_or, BitVec.msb_neg]
  obtain rfl | h0 := eq_or_ne acc 0#64
  · decide
  · obtain rfl | hmin := eq_or_ne acc (BitVec.intMin 64)
    · decide
    · rw [bne_iff_ne.mpr h0, bne_iff_ne.mpr hmin, Bool.true_and, Bool.true_xor, Bool.or_not_self]
      exact (decide_eq_true h0).symm

/-- The top bit of a word, as the queries extract it (R289). -/
theorem ushiftRight_and_one (x : Word) : x >>> 63 &&& 1#64 = if x.msb then 1#64 else 0#64 := by
  rw [BitVec.and_one_eq_setWidth_ofBool_getLsbD, BitVec.getLsbD_ushiftRight, BitVec.msb_eq_getLsbD_last]
  cases x.getLsbD 63 <;> rfl

theorem nonZeroBit_eq (acc : Word) : nonZeroBit acc = if acc = 0#64 then 0#64 else 1#64 := by
  rw [nonZeroBit, ushiftRight_and_one, msb_or_neg]
  by_cases h : acc = 0#64 <;> simp [h]

/-- The XOR-OR fold of vectors of equal length is 0 exactly where they are equal (R289). -/
theorem xorOrFold_eq_zero_iff : ∀ {a b : Element}, a.length = b.length → (xorOrFold a b = 0#64 ↔ a = b)
  | [], [], _ => by simp [xorOrFold]
  | x :: a, y :: b, h => by
    rw [xorOrFold, BitVec.or_eq_zero_iff, BitVec.xor_eq_zero_iff, xorOrFold_eq_zero_iff (Nat.succ.inj h),
      List.cons.injEq]

/-- The OR fold of a vector is 0 exactly where each limb is (R290). -/
theorem orFold_eq_zero_iff : ∀ {a : Element}, orFold a = 0#64 ↔ a = List.replicate a.length 0#64
  | [] => by simp [orFold]
  | x :: a => by
    rw [orFold, BitVec.or_eq_zero_iff, orFold_eq_zero_iff, List.length_cons, List.replicate_succ, List.cons.injEq]

theorem diffBit_eq {a b : Element} (h : a.length = b.length) : diffBit a b = if a = b then 0#64 else 1#64 := by
  rw [diffBit, nonZeroBit_eq]
  exact if_congr (xorOrFold_eq_zero_iff h) rfl rfl

theorem zeroBit_eq (a : Element) : zeroBit a = if a = List.replicate a.length 0#64 then 1#64 else 0#64 := by
  rw [zeroBit, nonZeroBit_eq]
  simp only [orFold_eq_zero_iff]
  split <;> rfl

variable {p : Params} (hp : p.Sound)
include hp

/-- The DIFF bit of NORM's representatives (R155, R289). -/
theorem diffBit_canon (v w : Int) :
    diffBit (canon p v) (canon p w) = if v ≡ w [ZMOD (p.prime : Int)] then 0#64 else 1#64 := by
  rw [diffBit_eq (by rw [length_canon, length_canon])]
  exact if_congr (canon_eq_canon_iff hp) rfl rfl

/-- The ZERO bit of NORM's representative (R155, R290). -/
theorem zeroBit_canon (v : Int) : zeroBit (canon p v) = if v ≡ 0 [ZMOD (p.prime : Int)] then 1#64 else 0#64 := by
  have hzero : List.replicate (canon p v).length 0#64 = canon p 0 := by
    rw [length_canon, canon, Int.zero_emod, chain, chainK_zero]
  rw [zeroBit_eq, hzero]
  exact if_congr (canon_eq_canon_iff hp) rfl rfl

end Queries

section Runs

variable {s : State} {a b : Reg}

theorem exec_mov (s : State) (rd a : Reg) : exec (.mov rd a) s = .next ((s.setElem rd (s.elem a)).complete .ok) := rfl

theorem exec_scrub (s : State) (rd : Reg) :
    exec (.scrub rd) s = .next ((s.setElem rd s.params.scrubbed).complete .ok) := rfl

theorem exec_nop (s : State) : exec .nop s = .next (s.complete .ok) := rfl

/-- CMPEQ of WF registers: the DIFF bit of their representatives, staged in d0 and d1 (R289). -/
theorem exec_cmpeq_of_ok (ha : s.operandOk a = true) (hb : s.operandOk b = true) :
    exec (.cmpeq a b) s = .next (((s.stage (canon s.params (s.elemVal a)) (canon s.params (s.elemVal b))).setResult
      (diffBit (canon s.params (s.elemVal a)) (canon s.params (s.elemVal b)))).complete .ok) := if_pos (both_ok ha hb)

/-- ISZERO of a WF register: the ZERO bit of its representative, staged in d0 (R290). -/
theorem exec_iszero_of_ok (ha : s.operandOk a = true) :
    exec (.iszero a) s = .next (((s.stage (canon s.params (s.elemVal a)) s.d1).setResult
      (zeroBit (canon s.params (s.elemVal a)))).complete .ok) := if_pos ha

/-- A command that writes the element `L` to rd, with its limbs kept in number, and completes normally (R31). -/
theorem writesElem_setElem (s : State) (rd : Reg) {L : Element}
    (hL : (∀ r, (s.elem r).length = s.params.numLimbs) → L.length = s.params.numLimbs) :
    WritesElem rd s ((s.setElem rd L).complete .ok) :=
  have hw : CommandWrites (.scrub rd) s (s.setElem rd L) := .setElem rfl hL
  hw.writesElem rfl rfl

end Runs

end Machine

/-- Settles O43: PACK's image has the value of its operand's residue, and UNPACK's element the residue of its image. -/
theorem packUnpackRoundTrip : Obligations.PackUnpackRoundTrip := by
  intro s rd rs1 hdec
  have hp := Params.sound_of_decided hdec
  refine ⟨fun hok => ?packThenUnpack, fun hlen hval => ?unpackThenPack⟩
  case packThenUnpack =>
    have hpack := exec_pack_of_ok hp hok
    set packed := (s.writeImage (valueByte (s.elemResidue rs1))).complete .ok
    have hlen : packed.params.packedBytes ≤ packed.pbufLen.toNat :=
      (Nat.mod_eq_of_lt (Params.decided_packedBytes_lt _ hdec)).ge
    have himage : packed.imageValue packed.params.packedBytes = s.elemResidue rs1 :=
      (imageValue_complete ..).trans (imageValue_writeImage s (residue_lt hp _))
    refine ⟨_, _, (execAll_cons hpack _).trans (execAll_cons (exec_unpack_full rd hlen) []), exec_norm_of_ok hok rd, ?_⟩
    rw [normed_elem_same, State.complete_ok_elem, State.setElem_elem_same, himage]
    exact (canon_val hp _).symm
  case unpackThenPack =>
    set v := s.imageValue s.params.packedBytes
    have hunpack := exec_unpack_full rd hlen
    set unpacked := (s.setElem rd (chain s.params v)).complete .ok
    have helem : unpacked.elem rd = canon s.params v :=
      (State.setElem_elem_same ..).trans (chain_eq_canon (Int.natCast_nonneg v) (Int.ofNat_lt.mpr hval))
    have hok : unpacked.operandOk rd = true := by
      rw [State.operandOk, helem]
      exact (canon_spec hp _).1
    have hres : unpacked.elemResidue rd = v := by
      rw [State.elemResidue, helem]
      exact (residue_canon hp v).trans (by rw [← Int.natCast_emod, Int.toNat_natCast, Nat.mod_eq_of_lt hval])
    have hpack := exec_pack_of_ok (s := unpacked) hp hok
    refine ⟨_, (execAll_cons hunpack _).trans (execAll_cons hpack []), fun j hj => ?_⟩
    have hbyte := pbufByte_writeImage unpacked (valueByte (unpacked.elemResidue rd)) hj
    rw [hres] at hbyte
    rw [hres]
    exact hbyte.trans (valueByte_imageValue s hj)

/-- Settles O44: the elements written, and for SETI their value, which for SCALAR ≥ 0 lies below p. -/
theorem movSetiScrubNopResults : Obligations.MovSetiScrubNopResults := by
  intro s rd rs1 hdec
  have hp := Params.sound_of_decided hdec
  refine ⟨?mov, fun hlo hhi => ?seti, ?scrub, ?nop⟩
  case mov => exact ⟨_, exec_mov s rd rs1, writesElem_setElem s rd fun h => h rs1, State.setElem_elem_same ..⟩
  case seti =>
    have hV : InWfRange s.params s.scalarInt := inWfRange_of_abs_lt (abs_toInt_lt hp s.scalar)
    refine ⟨_, exec_seti_of_ok (inAddRange_iff.mpr ⟨hlo, hhi⟩) rd, writesElem_setElem s rd fun _ => length_chain .., ?_⟩
    rw [State.complete_ok_elem, State.setElem_elem_same]
    refine ⟨wf_chain hp hV.1 hV.2, val_chain hp hV.1 hV.2, fun h0 => ?_⟩
    rw [chain_eq_canon h0 (hhi.trans_lt hp.addMax_lt_prime)]
    exact (canon_spec hp _).2.2
  case scrub =>
    refine ⟨_, exec_scrub s rd, writesElem_setElem s rd fun _ => length_scrubbed _, ?_, State.setElem_elem_same ..⟩
    rw [State.operandOk, State.complete_ok_elem, State.setElem_elem_same]
    exact wf_scrubbed hp
  case nop =>
    have hw : CommandWrites .nop s s := .refl _ _
    exact ⟨_, exec_nop s, hw.completed .ok, changesOnly_complete hw.frame .ok, rfl⟩

/-- Settles O45: NORM's representatives are equal exactly where the operands are congruent. -/
theorem cmpeqIszeroResults : Obligations.CmpeqIszeroResults := by
  intro s rs1 rs2 hdec h1 h2
  have hp := Params.sound_of_decided hdec
  exact ⟨⟨_, exec_cmpeq_of_ok h1 h2, writesResult_of_query .., fun h => (diffBit_canon hp _ _).trans (if_pos h),
      fun h => (diffBit_canon hp _ _).trans (if_neg h)⟩,
    ⟨_, exec_iszero_of_ok h1, writesResult_of_query .., fun h => (zeroBit_canon hp _).trans (if_pos h),
      fun h => (zeroBit_canon hp _).trans (if_neg h)⟩⟩

end Sys2Proof
end

section
/-! PROOFS, writes while BUSY = 1 (60_exceptions.md R324, R325, 70_reset_and_hazards.md R367, R371): what each of them leaves
of the state and of the cycle; and OVERRUN, which no command looks at. -/

namespace Sys2Proof

open Sys2Proof.Machine Sys2Proof.Safety

namespace Machine

/-- The offsets of CMD, SCALAR, PBUF_LEN and PBUF[w], whose writes BUSY = 1 drops (R324). -/
def DropsWhileBusy (p : Params) (off : Nat) : Prop :=
  off ∈ [0x20, 0x28, 0x40] ∨ ∃ k, k < p.pbufWords ∧ off = 0x100 + 8 * k

theorem hostWrite_dropped {s : State} (hb : s.isBusy = true) {off : Nat} (h : DropsWhileBusy s.params off) (v : Word) :
    s.hostWrite off v = s.setOverrun := by
  obtain hmem | ⟨k, hk, rfl⟩ := h
  · simp only [List.mem_cons, List.not_mem_nil, or_false] at hmem
    obtain rfl | rfl | rfl := hmem <;> exact whenIdle_busy _ hb
  · exact (s.hostWrite_pbuf hk v).trans (whenIdle_busy _ hb)

/-- These offsets are aligned offsets of the window, where PBUF ends below the limbs (R70, R71). -/
theorem DropsWhileBusy.aligned {p : Params} (hp : 0x100 + 8 * p.pbufWords ≤ 0x1000) {off : Nat}
    (h : DropsWhileBusy p off) : off < 0x2000 ∧ off % 8 = 0 := by
  obtain hmem | ⟨k, hk, rfl⟩ := h
  · simp only [List.mem_cons, List.not_mem_nil, or_false] at hmem
    omega
  · omega

/-- CTRL has one offset (R71). -/
theorem eq_of_regAt_ctrl {p : Params} {off : Nat} (h : regAt p off = .ctrl) : off = 0x10 := by
  by_contra hne
  simp [regAt, ite_eq_iff, hne] at h

/-- While BUSY = 1, SRST alone of the host's writes reaches the sequencer (R324, R361). -/
theorem hostWrite_phase_of_busy {s : State} (hb : s.isBusy = true) {off : Nat} {v : Word}
    (h : ¬(off = 0x10 ∧ v.getLsbD 1 = true)) : (s.hostWrite off v).phase = s.phase := by
  cases hr : regAt s.params off <;> simp only [State.hostWrite, hr]
  case ctrl => rw [if_neg fun hv => h ⟨eq_of_regAt_ctrl hr, hv⟩]
  case status => rfl
  case cmd | scalar | pbufLen | pbuf => rw [whenIdle_busy _ hb]; rfl

/-- The packed image's value is that of PBUF (R75). -/
theorem imageValue_congr {s t : State} (h : t.pbuf = s.pbuf) (k : Nat) : t.imageValue k = s.imageValue k := by
  induction k with
  | zero => rfl
  | succ k ih => rw [State.imageValue, State.imageValue, ih, State.pbufByte, State.pbufByte, h]

/-- Two runs that end alike, but that the second ends with OVERRUN set. -/
def OverrunApart (o o' : Host.Outcome State Fault Refusal) : Prop := ∃ t, o = .next t ∧ o' = .next t.setOverrun

/-- Two runs that decide a check alike. -/
theorem OverrunApart.ite {c : Prop} [Decidable c] {o p o' p' : Host.Outcome State Fault Refusal}
    (h : OverrunApart o o') (h' : OverrunApart p p') : OverrunApart (if c then o else p) (if c then o' else p') := by
  split <;> assumption

/-- No command looks at OVERRUN, or changes it: each check is of other fields, and so is each result. -/
theorem exec_setOverrun (i : Instr) (s : State) : OverrunApart (exec i s) (exec i s.setOverrun) := by
  cases i with
  | nop | mov | scrub => exact ⟨_, rfl, rfl⟩
  | add | sub | mul | sqr | neg | reduce | norm | inv | div | sqrt | isqrt | leg | iszero | cmpeq | pack | seti =>
    exact .ite ⟨_, rfl, rfl⟩ ⟨_, rfl, rfl⟩
  | unpack rd =>
    have himage : s.setOverrun.imageValue s.params.packedBytes = s.imageValue s.params.packedBytes :=
      imageValue_congr (s := s) (t := s.setOverrun) rfl _
    refine .ite ⟨_, rfl, rfl⟩ ⟨_, rfl, ?_⟩
    exact congrArg (fun n : Nat => (s.setOverrun.setElem rd (chain s.params n)).finish) himage
  | adds | subs | muls | legq => exact .ite (.ite ⟨_, rfl, rfl⟩ ⟨_, rfl, rfl⟩) ⟨_, rfl, rfl⟩

theorem runWord_setOverrun (w : CmdWord) (s : State) : OverrunApart (runWord w s) (runWord w s.setOverrun) := by
  rw [runWord, runWord]
  cases decode w with
  | some i => exact exec_setOverrun i s
  | none => exact ⟨_, rfl, rfl⟩

end Machine

/-- Settles O9: the dropped write leaves OVERRUN to the state on which the word runs, and the word does not look at it. -/
theorem writeInCompletingCycleIsDropped : Obligations.WriteInCompletingCycleIsDropped := by
  intro s w off v rest hp hbusy (hoff : DropsWhileBusy s.params off) hin
  have hb : s.isBusy = true := by rw [State.isBusy, hbusy]; rfl
  obtain ⟨hlt, h8⟩ := hoff.aligned (decided_pbuf_below_limbs _ hp)
  have hidle : step { s with inputs := .idle :: rest } = runWord w (s.taken rest) :=
    (step_of_hostHalf rfl).trans (sequencerHalf_last (s := s.taken rest) hbusy)
  have hwrite : step s = runWord w (s.taken rest).setOverrun := by
    rw [step_write hlt h8 hin, hostWrite_dropped hb hoff]
    exact sequencerHalf_last (s := (s.taken rest).setOverrun) hbusy
  obtain ⟨t, ht, ht'⟩ := runWord_setOverrun w (s.taken rest)
  obtain ⟨i, u, c, -, rfl, hw⟩ := runWord_next ht
  exact ⟨_, hidle.trans ht, hwrite.trans ht', rfl, rfl, congrArg (· + 1) hw.cmdCount, hw.frame.cmd, hw.frame.scalar⟩

/-- Settles O11, offset by offset; and but for SRST the write leaves the sequencer its cycle. -/
theorem busyWritesAreDroppedWithOverrun : Obligations.BusyWritesAreDroppedWithOverrun := by
  intro s v hp hb
  have hbelow := decided_pbuf_below_limbs _ hp
  have dropped {off : Nat} (h : DropsWhileBusy s.params off) : s.hostWrite off v = { s with overrun := true } :=
    hostWrite_dropped hb h v
  have ignored {off : Nat} {r : HostReg} (hr : regAt s.params off = r) (h : r.ignoresWrites = true) :
      s.hostWrite off v = s := State.hostWrite_ignored hr h v
  refine ⟨dropped (.inl (by decide)), dropped (.inl (by decide)), dropped (.inl (by decide)),
    fun w hw => dropped (.inr ⟨w, hw, rfl⟩), s.hostWrite_ctrl_ie, fun hv => ?reset, rfl, ignored rfl rfl, ignored rfl rfl,
    ignored rfl rfl, ignored rfl rfl,
    fun r i hr hi => ignored (regAt_limb hbelow (BitVec.ofNatLT r hr) hi) rfl,
    fun off rest w left hlt h8 hphase hleft hin => ⟨fun hsrst => ?count, fun hoff hv => ?softReset⟩⟩
  case reset =>
    rw [s.hostWrite_ctrl_srst hv]
    exact isResetState_resetOf ..
  case count =>
    obtain ⟨n, rfl⟩ : ∃ n, left = n + 2 := ⟨left - 2, by omega⟩
    rw [step_write hlt h8 hin]
    exact sequencerHalf_count (s := (s.hostWrite off v).taken rest) ((hostWrite_phase_of_busy hb hsrst).trans hphase)
  case softReset =>
    subst hoff
    rw [step_write hlt h8 hin, s.hostWrite_ctrl_srst hv]
    exact sequencerHalf_idle rfl

end Sys2Proof
end

section
/-! PROOFS, completion and model-level faults of every command (60_exceptions.md R320, R325 to R327): how each command ends,
what it reports, and where the strict step stops. -/

namespace Sys2Proof

open Sys2Proof.Machine Sys2Proof.Safety

/-- Settles O29: each command's run ends with the completion effects of one of the three completions. -/
theorem everyCommandCompletes : Obligations.EveryCommandCompletes := by
  intro i s
  obtain ⟨u, c, hc, hu, hw⟩ := exec_completes i s
  refine ⟨u.complete c, hu, ?_⟩
  simp only [completions, List.mem_cons, List.not_mem_nil, or_false] at hc
  obtain rfl | rfl | rfl := hc
  · exact .inl (hw.completed _)
  · exact .inr (.inl (hw.completed _))
  · exact .inr (.inr (hw.completed _))

namespace Machine

/-- A run that ends in a state with the report `r` (R326). -/
def EndsReporting (r : Option UB) (o : Host.Outcome State Fault Refusal) : Prop := ∃ t, o = .next t ∧ t.report = r

section Commands

variable {s : State} {i : Instr}

/-- A command with a source that is not WF reports UB_OPERAND, where nothing is on report yet (R148, R326). -/
theorem exec_reports_operand (hs : s.report = none) (hex : i.existsOn s.params = true)
    (h : ∃ r ∈ checkedSources i, s.operandOk r = false) : EndsReporting (some .operand) (exec i s) := by
  have hreport : some (s.report.getD .operand) = some .operand := by rw [hs]; rfl
  cases hd : destination i with
  | some rd => exact ⟨_, exec_of_not_ok hd h, hreport⟩
  | none =>
    cases i with
    | leg | legq | cmpeq | iszero => exact ⟨_, exec_query_of_not_ok rfl hex h, hreport⟩
    | pack a => exact ⟨_, exec_pack_of_not_ok (by simpa [checkedSources] using h), hreport⟩
    | nop => simp [checkedSources] at h
    | _ => cases hd

/-- Only commands that write rd read SCALAR (R104). -/
theorem exists_destination_of_scalar {p : Params} {v : Word} (h : scalarInRange p v i = false) :
    ∃ rd, destination i = some rd := by
  cases i with
  | adds rd | subs rd | muls rd | seti rd => exact ⟨rd, rfl⟩
  | _ => cases h

/-- A command with WF sources and a SCALAR out of its range reports UB_SCALAR (R188, R220, R326). -/
theorem exec_reports_scalar (hs : s.report = none) (hok : ∀ r ∈ checkedSources i, s.operandOk r = true)
    (h : scalarInRange s.params s.scalar i = false) : EndsReporting (some .scalar) (exec i s) := by
  obtain ⟨rd, hd⟩ := exists_destination_of_scalar h
  refine ⟨_, exec_of_scalar_out_of_range hd h hok, ?_⟩
  rw [State.complete_ok_report, State.ubElem_report, hs]
  rfl

theorem ok_of_forall_mem_pair {a b : Reg} (h : ∀ r ∈ [a, b], s.operandOk r = true) :
    s.operandOk a = true ∧ s.operandOk b = true := by simpa using h

/-- A command with WF sources and a SCALAR in its range reports nothing of its own (R326). -/
theorem exec_keeps_report (hex : i.existsOn s.params = true) (hok : ∀ r ∈ checkedSources i, s.operandOk r = true)
    (h : scalarInRange s.params s.scalar i = true) : EndsReporting s.report (exec i s) := by
  cases i with
  | nop | mov | scrub => exact ⟨_, rfl, rfl⟩
  | add rd a b | sub rd a b | mul rd a b =>
    obtain ⟨ha, hb⟩ := ok_of_forall_mem_pair hok
    exact ⟨_, pairwise_of_ok ha hb rd _, rfl⟩
  | div rd a b | cmpeq a b =>
    obtain ⟨ha, hb⟩ := ok_of_forall_mem_pair hok
    exact ⟨_, if_pos (both_ok ha hb), rfl⟩
  | sqr rd a => exact ⟨_, pairwise_of_ok (hok a List.mem_cons_self) (hok a List.mem_cons_self) rd _, rfl⟩
  | neg rd a | reduce rd a | norm rd a | inv rd a | sqrt rd a | isqrt rd a | leg a | pack a | iszero a =>
    exact ⟨_, if_pos (hok a List.mem_cons_self), rfl⟩
  | legq a => exact ⟨_, (if_pos hex).trans (if_pos (hok a List.mem_cons_self)), rfl⟩
  | adds rd a | subs rd a | muls rd a =>
    exact ⟨_, withScalar_of_ok (hok a List.mem_cons_self) ((Bool.decide_and ..).symm.trans h) rd _, rfl⟩
  | seti rd => exact ⟨_, exec_seti_of_ok ((Bool.decide_and ..).symm.trans h) rd, rfl⟩
  | unpack rd =>
    obtain hlen | hlen := lt_or_ge s.pbufLen.toNat s.params.packedBytes
    · exact ⟨_, exec_unpack_short rd hlen, rfl⟩
    · exact ⟨_, exec_unpack_full rd hlen, rfl⟩

end Commands

section Host

variable {s u : State} (h : s.report = none)
include h

/-- The host's writes report nothing: a reset alone touches the report, and clears it (R361; log 22). -/
theorem hostWrite_reports_nothing (off : Nat) (v : Word) : (s.hostWrite off v).report = none := by
  have whenIdle {t : State} (ht : t.report = none) : (s.whenIdle t).report = none := by
    cases hb : s.isBusy
    · rwa [whenIdle_idle t hb]
    · rwa [whenIdle_busy t hb]
  cases hr : regAt s.params off <;> simp only [State.hostWrite, hr]
  case id | cfg | result | cmdCount | limb | reserved | status => exact h
  case cmd | scalar | pbufLen | pbuf => exact whenIdle h
  case ctrl =>
    split
    · rfl
    · exact h

theorem access_reports_nothing {a : Access} (ha : s.access a = .next u) : u.report = none := by
  cases a with
  | read addr bytes =>
    simp only [State.access] at ha
    split at ha
    · cases ha
    · split at ha <;> obtain rfl := Host.Outcome.next.inj ha <;> exact h
  | write addr bytes v =>
    simp only [State.access] at ha
    split at ha
    · cases ha
    · obtain rfl := Host.Outcome.next.inj ha
      split
      · exact hostWrite_reports_nothing h _ v
      · exact h

/-- The host's half of a cycle reports nothing (R326). -/
theorem hostHalf_reports_nothing (hu : s.hostHalf = .next u) : u.report = none := by
  have of_eq (v : State) (hv : v.report = none) (he : s.hostHalf = .next v) : u.report = none :=
    Host.Outcome.next.inj (he.symm.trans hu) ▸ hv
  obtain ⟨-, he⟩ | ⟨rest, -, he⟩ | ⟨rest, -, -, he⟩ | ⟨rest, -, -, he⟩ | ⟨rest, -, he⟩ | ⟨a, rest, -, he⟩ |
    ⟨a, rest, -, he⟩ := hostHalf_cases s
  · exact of_eq (s.taken s.inputs) h he
  · exact of_eq (s.taken rest) h he
  · exact of_eq (s.taken s.inputs) h he
  · exact of_eq (s.taken rest) h he
  · exact of_eq (State.resetOf s.setup rest s.draws) rfl he
  · cases he.symm.trans hu
  · exact access_reports_nothing (s := s.taken rest) h (he.symm.trans hu)

end Host

section Strict

variable {s : State}

/-- The strict step stops at a first report, with the fault on report (R326). -/
theorem strictStep_of_reports {e : UB} (hs : s.report = none) (h : EndsReporting (some e) (step s)) :
    strictStep s = .fault (.ub e) := by
  obtain ⟨t, ht, hreport⟩ := h
  simp only [strictStep, ht, hs, hreport]

/-- The strict step goes on from a step that reports nothing. -/
theorem strictStep_of_reports_nothing (h : EndsReporting none (step s)) :
    ∃ t, step s = .next t ∧ strictStep s = .next t ∧ t.report = none := by
  obtain ⟨t, ht, hreport⟩ := h
  refine ⟨t, ht, ?_, hreport⟩
  obtain ⟨t', e, ht', -, he, -⟩ | ⟨heq, -⟩ := strictStep_cases s
  · obtain rfl := Host.Outcome.next.inj (ht.symm.trans ht')
    cases hreport.symm.trans he
  · exact heq.trans ht

/-- The cycle in which a command completes (R368). -/
theorem sequencerHalf_of_le {w : CmdWord} {left : Nat} (h : s.phase = .busy w left) (hl : left ≤ 1) :
    sequencerHalf s = runWord w s := by
  simp only [sequencerHalf, h, if_pos hl]

/-- A cycle of the sequencer that completes no command, or an illegal word, reports nothing of its own (R322, R326). -/
theorem sequencerHalf_keeps_report
    (h : s.phase = .idle ∨ ∃ w left, s.phase = .busy w left ∧ (1 < left ∨ decodeOn s.params w = none)) :
    EndsReporting s.report (sequencerHalf s) := by
  obtain ⟨-, hs⟩ | ⟨w, left, hp, hl, hs⟩ | ⟨w, left, -, -, hs⟩ := sequencerHalf_cases s
  · exact ⟨s, hs, rfl⟩
  · obtain hidle | ⟨w', left', hp', h⟩ := h
    · cases hidle.symm.trans hp
    · obtain ⟨rfl, rfl⟩ := Phase.busy.inj (hp.symm.trans hp')
      exact ⟨_, hs.trans (runWord_illegal (h.resolve_left (by omega))), rfl⟩
  · exact ⟨_, hs, rfl⟩

end Strict

end Machine

/-- Settles O54: the host's half reports nothing, so the strict step stops at what the sequencer's half reports, and that is
what a command reports that completes in it. -/
theorem strictStepStopsAtModelFaults : Obligations.StrictStepStopsAtModelFaults := by
  intro s
  refine ⟨fun hs => ?reported, fun hhost => ?stopped, fun u hs hu => ?_⟩
  case reported =>
    obtain ⟨t, e, -, hnone, -⟩ | ⟨heq, -⟩ := strictStep_cases s
    · exact absurd hnone hs
    · exact heq
  case stopped =>
    obtain ⟨t, e, ht, -⟩ | ⟨heq, -⟩ := strictStep_cases s
    · obtain ⟨u, hu, -⟩ := step_next ht
      exact absurd hu (hhost u)
    · exact heq
  have hstep : step s = sequencerHalf u := step_of_hostHalf hu
  have hnone : u.report = none := hostHalf_reports_nothing hs hu
  refine ⟨fun h => strictStep_of_reports_nothing ?_, fun w left i hp hl hdec hex => ?_⟩
  · rw [hstep, ← hnone]
    exact sequencerHalf_keeps_report h
  · have hexec : step s = exec i u :=
      hstep.trans ((sequencerHalf_of_le hp hl).trans (runWord_of_decode hdec u))
    refine ⟨fun hbad => strictStep_of_reports hs ?_, fun hok hout => strictStep_of_reports hs ?_,
      fun hok hin => strictStep_of_reports_nothing ?_⟩ <;> rw [hexec]
    · exact exec_reports_operand hnone hex hbad
    · exact exec_reports_scalar hnone hok hout
    · rw [← hnone]
      exact exec_keeps_report hex hok hin

end Sys2Proof
end

section
/-! PROOFS, the time a command takes (70_reset_and_hazards.md R368, R369): what a clock cycle does to the sequencer depends on
the set-up, the sequencer and the host's list alone. -/

namespace Sys2Proof

open Sys2Proof.Machine

namespace Machine

/-- Two states that agree on what the time of things depends on: the instance, the sequencer and what the host does. Their
operands and flags may differ. -/
structure InStep (s s' : State) : Prop where
  setup : s.setup = s'.setup
  phase : s.phase = s'.phase
  inputs : s.inputs = s'.inputs
  cmdCount : s.cmdCount = s'.cmdCount

/-- Two outcomes that go on in step, or stop for the same reason. -/
inductive EndInStep : (o o' : Host.Outcome State Fault Refusal) → Prop
  | next {t t' : State} (h : InStep t t') : EndInStep (.next t) (.next t')
  | fault (r : Fault) : EndInStep (.fault r) (.fault r)
  | refused (r : Refusal) : EndInStep (.refused r) (.refused r)

/-- A command completes with the set-up and the host's list as they were, the block idle and the command counted (R327). -/
theorem runWord_timing (w : CmdWord) (s : State) :
    ∃ t, runWord w s = .next t ∧ t.setup = s.setup ∧ t.phase = .idle ∧ t.inputs = s.inputs ∧
      t.cmdCount = s.cmdCount + 1 := by
  obtain ⟨i, u, c, -, hu, hw⟩ := runWord_completes w s
  exact ⟨u.complete c, hu, hw.frame.setup, rfl, hw.frame.inputs, congrArg (· + 1) hw.cmdCount⟩

namespace InStep

variable {s s' t t' : State} (h : InStep s s')
include h

theorem params : s.params = s'.params := congrArg Setup.params h.setup

theorem isBusy : s.isBusy = s'.isBusy := congrArg Phase.isBusy h.phase

/-- LAT is the same for both: it depends on the word and the instance (R368). -/
theorem latency (w : CmdWord) : s.latency w = s'.latency w := by
  simp only [State.latency, h.params, h.setup]

theorem offsetOf (addr : Nat) : offsetOf s addr = offsetOf s' addr := by
  simp only [Machine.offsetOf, h.setup]

theorem taken (rest : List HostOp) : InStep (s.taken rest) (s'.taken rest) := { h with inputs := rfl }

/-- Acceptance gives both the same number of BUSY cycles (R38, R368). -/
theorem accept (w : CmdWord) : InStep (s.accept w) (s'.accept w) :=
  { h with phase := congrArg (Phase.busy w) (h.latency w) }

theorem resetBlock : InStep s.resetBlock s'.resetBlock where
  setup := h.setup
  phase := rfl
  inputs := h.inputs
  cmdCount := rfl

/-- BUSY drops a write in both or in neither (R324). -/
theorem whenIdle (ht : InStep t t') : InStep (s.whenIdle t) (s'.whenIdle t') := by
  rw [State.whenIdle, State.whenIdle, h.isBusy]
  split
  · exact { h with }
  · exact ht

/-- A host write resets both blocks, gives both the command, or reaches the sequencer of neither. -/
theorem hostWrite (off : Nat) (v : Word) : InStep (s.hostWrite off v) (s'.hostWrite off v) := by
  rw [State.hostWrite, State.hostWrite, h.params]
  cases regAt s'.params off with
  | id | cfg | result | cmdCount | limb | reserved => exact h
  | status => exact { h with }
  | cmd => exact h.whenIdle (h.accept _)
  | scalar | pbufLen | pbuf => exact h.whenIdle { h with }
  | ctrl =>
    dsimp only
    split
    · exact h.resetBlock
    · exact { h with }

/-- An access is outside the window for both or for neither (R70), and a read has no effect on the sequencer (R74). -/
theorem access (a : Access) : EndInStep (s.access a) (s'.access a) := by
  cases a with
  | read addr bytes =>
    rw [State.access, State.access, h.offsetOf]
    cases Machine.offsetOf s' addr with
    | none => exact .fault _
    | some off =>
      dsimp only
      split <;> exact .next { h with }
  | write addr bytes v =>
    rw [State.access, State.access, h.offsetOf]
    cases Machine.offsetOf s' addr with
    | none => exact .fault _
    | some off =>
      dsimp only
      split
      · exact .next (h.hostWrite off v)
      · exact .next h

/-- The host's half of a cycle: the same entry of the host's list is taken, or waits, in both. -/
theorem hostHalf : EndInStep s.hostHalf s'.hostHalf := by
  rw [State.hostHalf, State.hostHalf, h.inputs]
  cases s'.inputs with
  | nil => exact .next (h.taken [])
  | cons op rest =>
    cases op with
    | idle => exact .next (h.taken rest)
    | wait =>
      dsimp only
      rw [h.isBusy]
      split
      · exact .next (h.taken (.wait :: rest))
      · exact .next (h.taken rest)
    | reset => exact .next (h.taken rest).resetBlock
    | resetWith => exact .refused _
    | access a => exact (h.taken rest).access a

/-- The last cycle of BUSY: the word completes for both, whatever its operands are (R320, R327). -/
theorem runWord (w : CmdWord) : EndInStep (runWord w s) (runWord w s') := by
  obtain ⟨t, ht, hsetup, hphase, hinputs, hcount⟩ := runWord_timing w s
  obtain ⟨t', ht', hsetup', hphase', hinputs', hcount'⟩ := runWord_timing w s'
  rw [ht, ht']
  exact .next
    { setup := by rw [hsetup, hsetup', h.setup]
      phase := by rw [hphase, hphase']
      inputs := by rw [hinputs, hinputs', h.inputs]
      cmdCount := by rw [hcount, hcount', h.cmdCount] }

/-- The sequencer's half of a cycle: both count down, or both complete (R368). -/
theorem sequencerHalf : EndInStep (sequencerHalf s) (sequencerHalf s') := by
  rw [Machine.sequencerHalf, Machine.sequencerHalf, h.phase]
  cases s'.phase with
  | idle => exact .next h
  | busy w left =>
    dsimp only
    split
    · exact h.runWord w
    · exact .next { h with phase := rfl }

end InStep

/-- A clock cycle keeps two states in step, or stops both for the same reason. -/
theorem InStep.step {s s' : State} (h : InStep s s') : EndInStep (step s) (step s') := by
  have hhost := h.hostHalf
  rw [Machine.step, Machine.step]
  generalize s.hostHalf = o, s'.hostHalf = o' at hhost ⊢
  cases hhost with
  | next hu => exact hu.sequencerHalf
  | fault r => exact .fault r
  | refused r => exact .refused r

/-- So does a run, cycle by cycle. -/
theorem InStep.run (k : Nat) : ∀ {s s' : State}, InStep s s' → EndInStep (core.run k s) (core.run k s') := by
  induction k with
  | zero => exact .next
  | succ k ih =>
    intro s s' h
    have hstep : EndInStep (core.step s) (core.step s') := h.step
    simp only [Host.Core.run]
    generalize core.step s = o, core.step s' = o' at hstep ⊢
    cases hstep with
    | next hu => exact ih hu
    | fault r => exact .fault r
    | refused r => exact .refused r

end Machine

/-- Settles O10, by induction over the cycles: neither half of a cycle looks at data to decide when something happens. -/
theorem timingIsIndependentOfData : Obligations.TimingIsIndependentOfData := by
  intro k s s' hsetup hphase hinputs hcount
  have hrun : EndInStep (core.run k s) (core.run k s') := InStep.run k ⟨hsetup, hphase, hinputs, hcount⟩
  generalize core.run k s = o, core.run k s' = o' at hrun ⊢
  cases hrun with
  | next h => exact ⟨h.phase, h.inputs, h.cmdCount⟩
  | fault r => rfl
  | refused r => rfl

end Sys2Proof
end
